-- ==== Sys2Proof/Word.lean ====
section
/-! DEFINITION. The words and numbers of the CT64's manual (spec/00 4.2, 4.3; spec/11 R183): bytes, board and
domain numbers, and the sets the part reports as words with one bit a member. -/

namespace Sys2Proof

/-- One byte of a link frame or of a service frame. -/
abbrev Byte := BitVec 8

/-- Boards, slots and links are numbered 0 to 63 (spec/00 4.3). -/
abbrev BoardNo := Fin 64

/-- Domains are numbered 0 to 47 (spec/00 4.3). -/
abbrev DomainNo := Fin 48

/-- A board's two request slots are tagged 0 and 1 (R161). -/
abbrev Tag := Fin 2

/-- A 64-board set, bit `b` standing for board `b` (R183). -/
abbrev BoardSet := BitVec 64

/-- A 48-domain set, bit `d` standing for domain `d` (R183). -/
abbrev DomainSet := BitVec 48

/-- A hold-cause set, bit `c` standing for cause `c` (R183). -/
abbrev CauseSet := BitVec 4

end Sys2Proof
end

