-- ==== Sys2Proof/Syntax.lean ====
section
/-! DEFINITION. The commands of the CT64: one constructor per row of spec/opcode_table.json. No row gives fields; the
operands are those its rule gives. -/

namespace Sys2Proof

/-- The operations and events of the part. A link event names the link `b` it happens on; an ECHO's `arrival` is no field
of its frame but when its last byte is received, in 10 ns units after the PROBE it finds waiting (log 20). A service
command carries the payload bytes clocked in after its command byte (R171, R184), and a frame of fewer than eight clocks
has no command byte, the `none` of UNKNOWN_COMMAND_CODE (log 10); a granted record request carries nothing, since the
request stands in its slot (R161, R173). -/
inductive Instr where
  | powerOnReset
  | resetInitialisationComplete
  | haltNAsserted
  | lineActivityDetected (b : BoardNo)
  | lossOfSignal (b : BoardNo)
  | probeAnswerTimeout (b : BoardNo)
  | echo (b : BoardNo) (number capacityCode : Byte) (arrival : Nat)
  | frameCheck (b : BoardNo)
  | badFrame (b : BoardNo)
  | error (b : BoardNo)
  | ack (b : BoardNo) (seq16 : BitVec 16)
  | ackTimeout (b : BoardNo)
  | hold (b : BoardNo) (cause : Byte)
  | release (b : BoardNo) (cause : Byte)
  | holdTimeout (b : BoardNo)
  | stopFrame (b : BoardNo) (code : Byte)
  | request (b : BoardNo) (tag : Tag) (kind : BitVec 7) (params : List Byte)
  | replySent (b : BoardNo) (tag : Tag)
  | recordCommandEntersSlot (code : Byte) (payload : List Byte)
  | unknownRequestKind
  | unknownCommandCode (code : Option Byte) (payload : List Byte)
  | create
  | find
  | lookup
  | list
  | listFrom
  | attach
  | detach
  | start
  | resume
  | revise
  | pause
  | retire
  | cancel
  | setStop
  | advance
  | run (payload : List Byte)
  | step (payload : List Byte)
  | stop (payload : List Byte)
  | clear (payload : List Byte)
  | rewind (payload : List Byte)
  | resync (payload : List Byte)
  | readRun (payload : List Byte)
  | admitBoard (payload : List Byte)
  | expel (payload : List Byte)
  | retrain (payload : List Byte)
  | setBoard (payload : List Byte)
  | readBoard (payload : List Byte)
  | setCabinet (payload : List Byte)
  | identify (payload : List Byte)
  | softReset (payload : List Byte)
  | readEvents (payload : List Byte)
  | setMask (payload : List Byte)
  | readReply (clocked : Nat)
  | haltNNegated
  | resetNNegated
  | scsNAsserted
  deriving DecidableEq, Repr

end Sys2Proof
end

