-- ==== Sys2Proof/Machine/Types.lean ====
section
/-! DEFINITION. The named values of the manual: levels, edge kinds, states, statuses, causes, fault kinds and the
frames the CT64 sends (spec/01 to spec/11). -/

namespace Sys2Proof.Machine

/-- Logic level of a design clock (spec/00 4.3). -/
inductive Level where
  | low | high
  deriving DecidableEq, Repr

/-- Kind of an edge (R4). -/
inductive EdgeKind where
  | rise | fall
  deriving DecidableEq, Repr

/-- Party allowed to change a record (R15, R20); also the sender of a record request. -/
inductive Owner where
  | service
  | board (b : BoardNo)
  deriving DecidableEq, Repr

/-- What is done when a stop count is reached (R41, R61). -/
inductive StopAction where
  | pauseDomain | stopCabinet | notify
  deriving DecidableEq, Repr

/-- A stop setting: a stop count with its action (R41). -/
structure StopSetting where
  count : Nat
  action : StopAction
  deriving DecidableEq, Repr

/-- Why a record is, or is about to be, PAUSED (R15, R44). -/
inductive PauseReason where
  | requested | count
  deriving DecidableEq, Repr

/-- The pending-change slot of an ACTIVE record (R44): `nothing` is the manual's NONE. -/
inductive Pending where
  | nothing
  | revisePrimary (period high : Nat)
  | reviseCompanion (gap : Nat)
  | pause (reason : PauseReason)
  | retire
  deriving DecidableEq, Repr

/-- Run states (R88). -/
inductive RunState where
  | stopped | running | draining | halted
  deriving DecidableEq, Repr

/-- The run budget (R92): `unlimited` is the manual's NONE. -/
inductive Budget where
  | unlimited
  | sets (remaining : Nat)
  | untilTime (limit : Nat)
  deriving DecidableEq, Repr

/-- Fault kinds of a link (R123); the board entry's NONE is `Option.none`. -/
inductive FaultKind where
  | trainFailed | ackTimeout | ackOrder | holdTimeout | frameCheck | badFrame | boardError
  deriving DecidableEq, Repr

/-- Causes of the stop cause record (R100); `nothing` is the manual's NONE. -/
inductive StopCause where
  | nothing | reset | stopCommand | budget | noEdges | timeLimit | breakpoint | trigger | rewind | resync
  | haltLine | boardFault | linkLost
  deriving DecidableEq, Repr

/-- The statuses of the master list (spec/09 9.5, R183). -/
inductive Status where
  | ok | replaced | upgraded | already | noSuch | notFound | tableFull | duplicate | denied | badParam
  | wrongState | conflict | dependent | parentIdle | gap | taken | released | notHeld | tooLate | faulted
  | notMember | stopping | notRunning | notReady | noMembers | slotBusy | endOfList
  deriving DecidableEq, Repr

/-- The status byte of a service frame (R172). -/
inductive PortStatus where
  | ready | busy | notReady
  deriving DecidableEq, Repr

/-- Edge entries a board accepts in one part (R112, R118). -/
inductive Capacity where
  | four | eight | sixteen | fortyEight
  deriving DecidableEq, Repr

/-- Whether a set is an edge set or a level set (R137). -/
inductive SetKind where
  | edge | level
  deriving DecidableEq, Repr

/-- The record requests (R164, R184); a request code outside them is unknown. -/
inductive RecordKind where
  | create | find | lookup | list | listFrom | attach | detach | start | resume | revise | pause | retire
  | cancel | setStop
  deriving DecidableEq, Repr

/-- One frame of a set copy (R137). -/
structure SetPart where
  kind : SetKind
  seq16 : BitVec 16
  time : Nat
  index : Nat
  last : Bool
  entries : List (DomainNo × Level)
  deriving DecidableEq, Repr

/-- The notices (R35, R38, R62, R182). A REVISED notice carries gap 0 for a primary. -/
inductive Notice where
  | started (d : DomainNo) (firstEdge : Nat)
  | resumed (d : DomainNo) (firstEdge : Nat)
  | revised (d : DomainNo) (generation : BitVec 16) (period high phase gap : Nat)
  | paused (d : DomainNo) (reason : PauseReason)
  | retired (d : DomainNo)
  | attached (d : DomainNo) (level : Level) (lastSeq : BitVec 32)
  | detached (d : DomainNo)
  deriving DecidableEq, Repr

/-- The frames the CT64 sends on a board link (R182). -/
inductive Frame where
  | probe (number : Nat)
  | linkReady (board : BoardNo) (allowance roundTrip : Nat)
  | setPart (part : SetPart)
  | notice (n : Notice)
  | reply (tag : Tag) (kind : BitVec 7) (status : Status) (data : List Byte)
  | holdAnswer (cause : Byte) (status : Status) (lastSeq : BitVec 32)
  | stopAnswer (code : Byte) (status : Status) (lastSeq : BitVec 32)
  deriving DecidableEq, Repr

/-- The events of the Attention Unit (R178). -/
inductive Event where
  | resetDone
  | linked (b : BoardNo)
  | count (d : DomainNo)
  | stopped
  | linkDown (b : BoardNo)
  | boardFault (b : BoardNo)
  | halted
  | haltLine
  deriving DecidableEq, Repr

end Sys2Proof.Machine
end

