-- ==== Sys2Proof/Machine/Codes.lean ====
section
/-! DEFINITION. Bit sets, byte order and the code tables of spec/11 (R182, R183, R184), shared by the decoder and by
the machine. -/

namespace Sys2Proof.Machine

/-- Membership in a set held as a word (R183). -/
def Bits.has {n : Nat} (x : BitVec n) (i : Nat) : Bool := x.getLsbD i

/-- The set with `i` added. -/
def Bits.add {n : Nat} (x : BitVec n) (i : Nat) : BitVec n := x ||| BitVec.twoPow n i

/-- The set with `i` taken out. -/
def Bits.remove {n : Nat} (x : BitVec n) (i : Nat) : BitVec n := x &&& ~~~(BitVec.twoPow n i)

/-- The number of members. -/
def Bits.card {n : Nat} (x : BitVec n) : Nat := (List.range n).countP fun i => x.getLsbD i

/-- `n` bytes of `v`, most-significant byte first (spec/00 4.2, R182). -/
def Bytes.be : Nat → Nat → List Byte
  | 0, _ => []
  | n + 1, v => BitVec.ofNat 8 (v / 256 ^ n) :: Bytes.be n v

/-- The number that bytes sent most-significant byte first spell. -/
def Bytes.toNat (l : List Byte) : Nat := l.foldl (fun a b => a * 256 + b.toNat) 0

/-- The bits of a byte, most-significant bit first (R170, R182). -/
def Bytes.bitsOf (x : Byte) : List Bool := [7, 6, 5, 4, 3, 2, 1, 0].map fun i => x.getLsbD i

/-- The bits of bytes in the order in which they travel (R170). -/
def Bytes.bits (l : List Byte) : List Bool := l.flatMap Bytes.bitsOf

/-- The whole bytes of bits clocked in, most-significant bit first; bits beyond a whole byte are ignored (R170, R171). -/
def Bytes.ofBits : List Bool → List Byte
  | b7 :: b6 :: b5 :: b4 :: b3 :: b2 :: b1 :: b0 :: rest =>
    (BitVec.ofBool b7 ++ BitVec.ofBool b6 ++ BitVec.ofBool b5 ++ BitVec.ofBool b4 ++ BitVec.ofBool b3 ++
      BitVec.ofBool b2 ++ BitVec.ofBool b1 ++ BitVec.ofBool b0) :: Bytes.ofBits rest
  | _ => []

/-- What a line carries at the rising edges of SCK, from the levels of SCK and of that line in the order in which they
stand, after a level of SCK (R170). -/
def Bytes.sampled : Bool → List (Bool × Bool) → List Bool
  | _, [] => []
  | before, (sck, line) :: rest =>
    if sck && !before then line :: Bytes.sampled sck rest else Bytes.sampled sck rest

/-- A 64-board set, a 48-domain set: one number, most-significant byte first (R183). -/
def Bytes.ofSet {n : Nat} (k : Nat) (x : BitVec n) : List Byte := Bytes.be k x.toNat

def Level.byte : Level → Byte
  | .low => 0x00#8
  | .high => 0x01#8

/-- 00h LOW, 01h HIGH; any other byte is out of range (R185). -/
def Level.ofByte (b : Byte) : Option Level :=
  if b = 0x00#8 then some .low else if b = 0x01#8 then some .high else none

/-- R183. -/
def Status.byte : Status → Byte
  | .ok => 0x00#8
  | .replaced => 0x01#8
  | .upgraded => 0x02#8
  | .already => 0x03#8
  | .noSuch => 0x04#8
  | .notFound => 0x05#8
  | .tableFull => 0x06#8
  | .duplicate => 0x07#8
  | .denied => 0x08#8
  | .badParam => 0x09#8
  | .wrongState => 0x0A#8
  | .conflict => 0x0B#8
  | .dependent => 0x0C#8
  | .parentIdle => 0x0D#8
  | .gap => 0x0E#8
  | .taken => 0x0F#8
  | .released => 0x10#8
  | .notHeld => 0x11#8
  | .tooLate => 0x12#8
  | .faulted => 0x13#8
  | .notMember => 0x14#8
  | .stopping => 0x15#8
  | .notRunning => 0x16#8
  | .notReady => 0x17#8
  | .noMembers => 0x18#8
  | .slotBusy => 0x19#8
  | .endOfList => 0x1B#8

/-- R183. -/
def FaultKind.byte : FaultKind → Byte
  | .trainFailed => 0x01#8
  | .ackTimeout => 0x02#8
  | .ackOrder => 0x03#8
  | .holdTimeout => 0x04#8
  | .frameCheck => 0x05#8
  | .badFrame => 0x06#8
  | .boardError => 0x07#8

/-- The board record's last fault kind: 00h for NONE (R183). -/
def FaultKind.byteOf : Option FaultKind → Byte
  | none => 0x00#8
  | some k => k.byte

/-- R183. -/
def StopCause.byte : StopCause → Byte
  | .nothing => 0x00#8
  | .reset => 0x01#8
  | .stopCommand => 0x02#8
  | .budget => 0x03#8
  | .noEdges => 0x04#8
  | .timeLimit => 0x05#8
  | .breakpoint => 0x06#8
  | .trigger => 0x07#8
  | .rewind => 0x08#8
  | .resync => 0x09#8
  | .haltLine => 0x0A#8
  | .boardFault => 0x0B#8
  | .linkLost => 0x0C#8

/-- R183. -/
def RunState.byte : RunState → Byte
  | .stopped => 0x00#8
  | .running => 0x01#8
  | .draining => 0x02#8
  | .halted => 0x03#8

/-- R186. -/
def PortStatus.byte : PortStatus → Byte
  | .ready => 0x80#8
  | .busy => 0x81#8
  | .notReady => 0x82#8

/-- Entries in one part (R112). -/
def Capacity.entries : Capacity → Nat
  | .four => 4
  | .eight => 8
  | .sixteen => 16
  | .fortyEight => 48

/-- The capacity code of an ECHO (R182); any other code counts as a missing answer (R116). -/
def Capacity.ofCode (b : Byte) : Option Capacity :=
  if b = 0x00#8 then some .four
  else if b = 0x01#8 then some .eight
  else if b = 0x02#8 then some .sixteen
  else if b = 0x03#8 then some .fortyEight
  else none

/-- R182. -/
def PauseReason.byte : PauseReason → Byte
  | .requested => 0x01#8
  | .count => 0x02#8

/-- R185. -/
def StopAction.byte : StopAction → Byte
  | .pauseDomain => 0x01#8
  | .stopCabinet => 0x02#8
  | .notify => 0x03#8

/-- The command code of a record request (R184). -/
def RecordKind.code : RecordKind → Byte
  | .create => 0x01#8
  | .find => 0x02#8
  | .lookup => 0x03#8
  | .list => 0x04#8
  | .listFrom => 0x05#8
  | .attach => 0x06#8
  | .detach => 0x07#8
  | .start => 0x08#8
  | .resume => 0x09#8
  | .revise => 0x0A#8
  | .pause => 0x0B#8
  | .retire => 0x0C#8
  | .cancel => 0x0D#8
  | .setStop => 0x0E#8

/-- Every record request kind, in the order of its codes (R184). -/
def RecordKind.all : List RecordKind :=
  [.create, .find, .lookup, .list, .listFrom, .attach, .detach, .start, .resume, .revise, .pause, .retire,
    .cancel, .setStop]

/-- The record request of a code, none for an unknown one (R165, R184). -/
def RecordKind.ofCode (b : Byte) : Option RecordKind := RecordKind.all.find? fun k => k.code == b

/-- Payload length of a record command on the service port (R184). -/
def RecordKind.serviceLength : RecordKind → Nat
  | .create => 17
  | .find => 2
  | .lookup => 1
  | .list => 0
  | .listFrom => 1
  | .attach => 2
  | .detach => 2
  | .start => 1
  | .resume => 1
  | .revise => 9
  | .pause => 1
  | .retire => 1
  | .cancel => 1
  | .setStop => 6

/-- The codes of the service commands that are not record requests (R184). -/
def Codes.run : Byte := 0x20#8
def Codes.step : Byte := 0x21#8
def Codes.stop : Byte := 0x22#8
def Codes.clear : Byte := 0x23#8
def Codes.rewind : Byte := 0x24#8
def Codes.resync : Byte := 0x25#8
def Codes.readRun : Byte := 0x26#8
def Codes.admitBoard : Byte := 0x30#8
def Codes.expel : Byte := 0x31#8
def Codes.retrain : Byte := 0x32#8
def Codes.setBoard : Byte := 0x33#8
def Codes.readBoard : Byte := 0x34#8
def Codes.setCabinet : Byte := 0x40#8
def Codes.identify : Byte := 0x41#8
def Codes.softReset : Byte := 0x4F#8
def Codes.readEvents : Byte := 0x50#8
def Codes.setMask : Byte := 0x51#8
def Codes.readReply : Byte := 0x60#8

/-- The known command codes that are not record requests. -/
def Codes.direct : List Byte :=
  [Codes.run, Codes.step, Codes.stop, Codes.clear, Codes.rewind, Codes.resync, Codes.readRun, Codes.admitBoard,
    Codes.expel, Codes.retrain, Codes.setBoard, Codes.readBoard, Codes.setCabinet, Codes.identify,
    Codes.softReset, Codes.readEvents, Codes.setMask, Codes.readReply]

/-- Whether a command code is one of R184's table. -/
def Codes.known (b : Byte) : Bool := (RecordKind.ofCode b).isSome || Codes.direct.contains b

end Sys2Proof.Machine
end

