-- ==== Sys2Proof/WellFormed.lean ====
section
/-! DEFINITION. Which operands the frames listed under a row can carry. No command stops for its operands: a frame given
under another row than its own has the effect of the frame it is (log 16). -/

namespace Sys2Proof

open Sys2Proof.Machine

/-- A REQUEST payload is 1 to 18 bytes, so at most 17 follow byte 0 (R182). -/
def requestLengthOk (params : List Byte) : Bool := decide (params.length ≤ 17)

/-- An unknown command code is none of R184's table; a frame without a whole command byte has no payload (R171). -/
def unknownCodeOk (code : Option Byte) (payload : List Byte) : Bool :=
  match code with
  | some c => !Codes.known c
  | none => payload.isEmpty

/-- Well-formed commands. A service command's payload may have any length: a wrong one has its own answer (R171). -/
def Instr.wf : Instr → Bool
  | .echo _ _ _ _ => true
  | .request _ _ _ params => requestLengthOk params
  | .recordCommandEntersSlot code _ => (RecordKind.ofCode code).isSome
  | .unknownCommandCode code payload => unknownCodeOk code payload
  | .powerOnReset => true
  | .resetInitialisationComplete => true
  | .haltNAsserted => true
  | .lineActivityDetected _ => true
  | .lossOfSignal _ => true
  | .probeAnswerTimeout _ => true
  | .frameCheck _ => true
  | .badFrame _ => true
  | .error _ => true
  | .ack _ _ => true
  | .ackTimeout _ => true
  | .hold _ _ => true
  | .release _ _ => true
  | .holdTimeout _ => true
  | .stopFrame _ _ => true
  | .replySent _ _ => true
  | .unknownRequestKind => true
  | .create => true
  | .find => true
  | .lookup => true
  | .list => true
  | .listFrom => true
  | .attach => true
  | .detach => true
  | .start => true
  | .resume => true
  | .revise => true
  | .pause => true
  | .retire => true
  | .cancel => true
  | .setStop => true
  | .advance => true
  | .run _ => true
  | .step _ => true
  | .stop _ => true
  | .clear _ => true
  | .rewind _ => true
  | .resync _ => true
  | .readRun _ => true
  | .admitBoard _ => true
  | .expel _ => true
  | .retrain _ => true
  | .setBoard _ => true
  | .readBoard _ => true
  | .setCabinet _ => true
  | .identify _ => true
  | .softReset _ => true
  | .readEvents _ => true
  | .setMask _ => true
  | .readReply _ => true
  | .haltNNegated => true
  | .resetNNegated => true
  | .scsNAsserted => true

end Sys2Proof
end

