-- ==== Sys2Proof/Decode.lean ====
section
/-! DEFINITION. Bytes to commands. No row of spec/opcode_table.json gives bits, so `decodeTableWord` reads none; what
arrives on a link or on the service port is bytes, and spec/11 (R182, R184) says which command they are. -/

namespace Sys2Proof

open Sys2Proof.Machine

/-- No row of the table gives bits (log 1). -/
def decodeTableWord (_nbits _w : Nat) : Option Instr := none

/-- One bit into the CRC-16 register, generator x^16 + x^12 + x^5 + 1 (R120, R182). -/
def crcBit (r : BitVec 16) (bit : Bool) : BitVec 16 :=
  if r.msb != bit then (r <<< 1) ^^^ 0x1021#16 else r <<< 1

/-- One byte into the register, most-significant bit first (R182). -/
def crcByte (r : BitVec 16) (x : Byte) : BitVec 16 :=
  (Bytes.bitsOf x).foldl crcBit r

/-- The CRC-16 of bytes, initial value FFFFh, not inverted (R182). -/
def crc16 (bytes : List Byte) : BitVec 16 := bytes.foldl crcByte 0xFFFF#16

/-- The two CRC bytes, most-significant first (R182). -/
def crcField (body : List Byte) : List Byte :=
  [(crc16 body).extractLsb' 8 8, (crc16 body).extractLsb' 0 8]

/-- A frame of either direction after its start delimiter: kind, length, payload, CRC (R182). -/
def linkFrame (kind : Byte) (payload : List Byte) : List Byte :=
  (kind :: BitVec.ofNat 8 payload.length :: payload) ++
    crcField (kind :: BitVec.ofNat 8 payload.length :: payload)

/-- The lengths allowed for the kinds a board sends, least and greatest (R182). -/
def boardFrameLengths (kind : Byte) : Option (Nat × Nat) :=
  if kind = 0x01#8 then some (2, 2)
  else if kind = 0x02#8 then some (1, 1)
  else if kind = 0x03#8 then some (1, 1)
  else if kind = 0x04#8 then some (1, 1)
  else if kind = 0x05#8 then some (1, 18)
  else if kind = 0x06#8 then some (2, 2)
  else if kind = 0x07#8 then some (0, 0)
  else none

/-- Step 2 of the frame check (R120, R182). -/
def formOk (kind len : Byte) (payload : List Byte) : Bool :=
  match boardFrameLengths kind with
  | none => false
  | some (lo, hi) => decide (lo ≤ len.toNat ∧ len.toNat ≤ hi ∧ len.toNat = payload.length)

/-- The tag in bit 7 of a REQUEST's byte 0 (R182). -/
def requestTag (x : Byte) : Tag := if x.msb then 1 else 0

/-- The command a well-formed payload of a kind is (R121, R182); `arrival` is when the frame was received, in units after
the link's last PROBE, which only an ECHO uses (R117; log 20). -/
def framePayload (b : BoardNo) (kind : Byte) (payload : List Byte) (arrival : Nat) : Instr :=
  match payload with
  | [] => .error b
  | [x] =>
    if kind = 0x02#8 then .hold b x
    else if kind = 0x03#8 then .release b x
    else if kind = 0x04#8 then .stopFrame b x
    else .request b (requestTag x) (x.extractLsb' 0 7) []
  | x :: y :: rest =>
    if kind = 0x01#8 then .ack b (x ++ y)
    else if kind = 0x06#8 then .echo b x y arrival
    else .request b (requestTag x) (x.extractLsb' 0 7) (y :: rest)

/-- The frame check of R120 on the bytes after the start delimiter, and the command they are on link `b`. -/
def decodeLinkFrame (b : BoardNo) (bytes : List Byte) (arrival : Nat) : Instr :=
  if crc16 bytes ≠ 0#16 then .frameCheck b
  else
    match bytes with
    | kind :: len :: rest =>
      if formOk kind len (rest.take (rest.length - 2)) && decide (2 ≤ rest.length) then
        framePayload b kind (rest.take (rest.length - 2)) arrival
      else .badFrame b
    | _ => .badFrame b

/-- Byte 0 of a REQUEST (R182). -/
def requestByte (tag : Tag) (kind : BitVec 7) : Byte :=
  BitVec.ofBool (decide (tag = 1)) ++ kind

/-- The frame a board sends for a command of its link, after the start delimiter (R182). -/
def encodeLinkFrame : Instr → Option (List Byte)
  | .ack _ seq16 => some (linkFrame 0x01#8 [seq16.extractLsb' 8 8, seq16.extractLsb' 0 8])
  | .hold _ cause => some (linkFrame 0x02#8 [cause])
  | .release _ cause => some (linkFrame 0x03#8 [cause])
  | .stopFrame _ code => some (linkFrame 0x04#8 [code])
  | .request _ tag kind params => some (linkFrame 0x05#8 (requestByte tag kind :: params))
  | .echo _ number capacityCode _ => some (linkFrame 0x06#8 [number, capacityCode])
  | .error _ => some (linkFrame 0x07#8 [])
  | _ => none

/-- The command a service frame's bytes are: the command code, then its payload (R171, R184). A frame without a whole
command byte has no code. For READ REPLY the bytes after the code only say how long the processor clocks (R174). -/
def decodeServiceFrame (bytes : List Byte) : Instr :=
  match bytes with
  | [] => .unknownCommandCode none []
  | code :: payload =>
    if (RecordKind.ofCode code).isSome then .recordCommandEntersSlot code payload
    else if code = Codes.run then .run payload
    else if code = Codes.step then .step payload
    else if code = Codes.stop then .stop payload
    else if code = Codes.clear then .clear payload
    else if code = Codes.rewind then .rewind payload
    else if code = Codes.resync then .resync payload
    else if code = Codes.readRun then .readRun payload
    else if code = Codes.admitBoard then .admitBoard payload
    else if code = Codes.expel then .expel payload
    else if code = Codes.retrain then .retrain payload
    else if code = Codes.setBoard then .setBoard payload
    else if code = Codes.readBoard then .readBoard payload
    else if code = Codes.setCabinet then .setCabinet payload
    else if code = Codes.identify then .identify payload
    else if code = Codes.softReset then .softReset payload
    else if code = Codes.readEvents then .readEvents payload
    else if code = Codes.setMask then .setMask payload
    else if code = Codes.readReply then .readReply payload.length
    else .unknownCommandCode (some code) payload

/-- The command of the bits clocked in on SDI while SCS_N is asserted (R170, R171). -/
def decodeServiceBits (bits : List Bool) : Instr := decodeServiceFrame (Bytes.ofBits bits)

/-- The command of the levels of SCK and SDI while SCS_N is asserted, SCK idling LOW before them (R170, R171). -/
def decodeServiceWires (levels : List (Bool × Bool)) : Instr := decodeServiceBits (Bytes.sampled false levels)

/-- The whole bytes of a service command's frame (R184): its code and payload, none of them in a frame of fewer than eight
clocks (R171). READ REPLY's frame is its code and filler for the bytes clocked. -/
def encodeServiceFrame : Instr → Option (List Byte)
  | .recordCommandEntersSlot code payload => some (code :: payload)
  | .unknownCommandCode (some code) payload => some (code :: payload)
  | .unknownCommandCode none _ => some []
  | .run payload => some (Codes.run :: payload)
  | .step payload => some (Codes.step :: payload)
  | .stop payload => some (Codes.stop :: payload)
  | .clear payload => some (Codes.clear :: payload)
  | .rewind payload => some (Codes.rewind :: payload)
  | .resync payload => some (Codes.resync :: payload)
  | .readRun payload => some (Codes.readRun :: payload)
  | .admitBoard payload => some (Codes.admitBoard :: payload)
  | .expel payload => some (Codes.expel :: payload)
  | .retrain payload => some (Codes.retrain :: payload)
  | .setBoard payload => some (Codes.setBoard :: payload)
  | .readBoard payload => some (Codes.readBoard :: payload)
  | .setCabinet payload => some (Codes.setCabinet :: payload)
  | .identify payload => some (Codes.identify :: payload)
  | .softReset payload => some (Codes.softReset :: payload)
  | .readEvents payload => some (Codes.readEvents :: payload)
  | .setMask payload => some (Codes.setMask :: payload)
  | .readReply clocked => some (Codes.readReply :: List.replicate clocked 0#8)
  | _ => none

/-- The board a link frame came from. -/
def Instr.link? : Instr → Option BoardNo
  | .ack b _ => some b
  | .hold b _ => some b
  | .release b _ => some b
  | .stopFrame b _ => some b
  | .request b _ _ _ => some b
  | .echo b _ _ _ => some b
  | .error b => some b
  | _ => none

/-- When a frame was received, for an ECHO: the others are not timed from a PROBE. -/
def Instr.arrival? : Instr → Nat
  | .echo _ _ _ arrival => arrival
  | _ => 0

end Sys2Proof
end

