-- ==== Sys2Proof/Config.lean ====
section
/-! DEFINITION. What the manual fixes as numbers, and the values it leaves free (log 4, log 5). -/

namespace Sys2Proof.Config

/-- Emulation time runs to 2^48 - 1 (R1). -/
def timeLimit : Nat := 2 ^ 48 - 1

/-- Power-on values of the cabinet settings and of a board's limits (R113, R176). -/
def defaultFilterK : Nat := 8
def defaultEscalationE : Nat := 4
def defaultWindow : Nat := 2
def defaultHoldLimit : Nat := 50
def defaultAckBase : Nat := 200

/-- Real times in 10 ns units of REFCLK: one microsecond, one millisecond, the probe answer wait of 100 us (R116)
and reset initialisation of 50 us (R89). -/
def unitsPerMicrosecond : Nat := 100
def unitsPerMillisecond : Nat := 100000
def probeWait : Nat := 10000
def initialisation : Nat := 5000

/-- Probes in one training attempt (R119), and the largest spread of an agreement run (R117). -/
def probeLimit : Nat := 64
def agreementSpread : Nat := 2

/-- IDENTIFY's three values (R176). -/
def identity : List Byte := [0x0B#8, 0x64#8, 0x01#8]

/-- FREE VALUE: which of the events that fall due at one instant is taken first (R99, R125, R146, R156 leave the order
open). The n-th choice picks that event, counted modulo how many there are (log 4). -/
opaque freeChoice : Nat → Nat

/-- FREE VALUE: whether link `b` finishes sending the frame at the head of its transmit queue in the n-th period of
REFCLK; the line's rate is outside the manual (log 5). -/
opaque frameSent : Nat → Nat → Bool

end Sys2Proof.Config
end

