-- ==== Sys2Proof/Machine/State.lean ====
section
/-! DEFINITION. The whole state of the CT64 as plain data, its reset values, and the reasons a step can stop. -/

namespace Sys2Proof.Machine

/-- A primary's own waveform (R3) and the number of its companion, if it has one (R15, R28). -/
structure Primary where
  period : Nat
  high : Nat
  phase : Nat
  park : Level
  companion : Option DomainNo
  deriving DecidableEq, Repr

/-- A companion's parent and gap (R7, R15); its waveform is derived. -/
structure Companion where
  parent : DomainNo
  gap : Nat
  deriving DecidableEq, Repr

/-- The kind of a record with the fields of that kind (R15). -/
inductive Source where
  | primary (p : Primary)
  | companion (c : Companion)
  deriving DecidableEq, Repr

/-- Lifecycle of a non-FREE record (R17): the pending-change slot exists while ACTIVE, the pause reason while
PAUSED. -/
inductive Life where
  | defined
  | active (pending : Pending)
  | paused (reason : PauseReason)
  deriving DecidableEq, Repr

/-- A non-FREE domain record (R15). Its next edge is its entry in the Edge Calendar (R67). -/
structure Domain where
  label : Nat
  owner : Owner
  source : Source
  level : Level
  generation : BitVec 16
  count : Nat
  stop : Option StopSetting
  life : Life
  subscribers : BoardSet
  deriving DecidableEq, Repr

/-- An entry of the Edge Calendar (R67). -/
structure Entry where
  time : Nat
  domain : DomainNo
  kind : EdgeKind
  deriving DecidableEq, Repr

/-- The stop cause record (R100). -/
structure StopRecord where
  cause : StopCause
  board : Option BoardNo
  domain : Option DomainNo
  code : Option Byte
  time : Nat
  seq : BitVec 32
  deriving DecidableEq, Repr

/-- A training attempt in progress (R116, R117): the K it began with, its probe count, its agreement run, and the
instant at which the PROBE of the current probe was sent, from which its answer wait and its round trip are counted. -/
structure Training where
  filterK : Nat
  probeCount : Nat
  run : List Nat
  sent : Nat
  deriving DecidableEq, Repr

/-- Link states (R114). -/
inductive Link where
  | down
  | training (t : Training)
  | linked
  | fault
  deriving DecidableEq, Repr

/-- A running ack timer: the instants of its start and of its expiry (R142, R144). -/
structure AckTimer where
  started : Nat
  deadline : Nat
  deriving DecidableEq, Repr

/-- A board's request slot (R161). -/
inductive BoardSlot where
  | empty
  | waiting (kind : BitVec 7) (params : List Byte)
  | replied
  deriving DecidableEq, Repr

/-- One entry of the Board Table (R112) with the link's receiver condition (R115) and the board's two request slots
(R161). -/
structure Board where
  link : Link
  signal : Bool
  member : Bool
  lastFault : Option FaultKind
  roundTrip : Nat
  capacity : Option Capacity
  window : Nat
  holdLimit : Nat
  ackBase : Nat
  outstanding : Nat
  ackTimer : Option AckTimer
  held : CauseSet
  timedOut : CauseSet
  holdTimer : Option Nat
  ackedSets : BitVec 32
  holdsTaken : BitVec 32
  longestAckWait : Nat
  txQueue : List Frame
  slots : Vector BoardSlot 2
  deriving DecidableEq, Repr

/-- The service slot (R173). -/
inductive ServiceSlot where
  | empty
  | waiting (code : Byte) (payload : List Byte)
  | done (code : Byte) (status : Status) (data : List Byte)
  deriving DecidableEq, Repr

/-- The pending events (R178). -/
structure Events where
  resetDone : Bool
  stopped : Bool
  halted : Bool
  haltLine : Bool
  linked : BoardSet
  linkDown : BoardSet
  boardFault : BoardSet
  count : DomainSet
  deriving DecidableEq, Repr

/-- RESET_N asserted, reset initialisation until an instant, or in service (R89, R113, R177). -/
inductive Phase where
  | resetHeld
  | initialising (deadline : Nat)
  | ready
  deriving DecidableEq, Repr

/-- The CT64. Instants and `clock` are in 10 ns periods of REFCLK. `frame` is none while SCS_N is negated, and otherwise
the status byte fixed for the frame; `sdo` is the model's record of the bytes shifted out in the frame last begun, and
not the pin, which is `State.sdoPin` (R170; log 14). -/
structure State where
  phase : Phase
  clock : Nat
  haltAsserted : Bool
  time : Nat
  seq : BitVec 32
  calendar : List Entry
  records : Vector (Option Domain) 48
  runState : RunState
  budget : Budget
  stopRecord : StopRecord
  furtherFaults : Nat
  boards : Vector Board 64
  pointer : BoardNo
  escalation : Nat
  slot : ServiceSlot
  listCursor : Nat
  frame : Option PortStatus
  sdo : List Byte
  filterK : Nat
  escalationE : Nat
  events : Events
  mask : Nat
  freeCount : Nat
  pending : List Instr
  deriving DecidableEq, Repr

/-- Why the model stops: for no reason. The CT64 stops on nothing, every command completes in every state, and no fault
has a name. Safe (log 16). -/
inductive Fault where
  deriving DecidableEq, Repr

/-- Why the model gives a command no meaning. -/
inductive Refusal where
  /-- Raised by a refused arm of `exec`, naming the row. Safe. No arm raises it. -/
  | notModelled (mnemonic : String)
  deriving DecidableEq, Repr

/-- A board entry after power-on reset (R113). -/
def Board.powerOn : Board where
  link := .down
  signal := false
  member := false
  lastFault := none
  roundTrip := 0
  capacity := none
  window := Config.defaultWindow
  holdLimit := Config.defaultHoldLimit
  ackBase := Config.defaultAckBase
  outstanding := 0
  ackTimer := none
  held := 0
  timedOut := 0
  holdTimer := none
  ackedSets := 0
  holdsTaken := 0
  longestAckWait := 0
  txQueue := []
  slots := Vector.replicate 2 .empty

/-- No event pending (R181). -/
def Events.none : Events where
  resetDone := false
  stopped := false
  halted := false
  haltLine := false
  linked := 0
  linkDown := 0
  boardFault := 0
  count := 0

/-- The stop cause record after reset (R89). -/
def StopRecord.reset : StopRecord where
  cause := .reset
  board := .none
  domain := .none
  code := .none
  time := 0
  seq := 0

/-- The CT64 in power-on reset, RESET_N asserted (R1, R18, R73, R74, R89, R113, R169, R173, R176, R179, R181; log 2,
log 4, log 7, log 10, log 11, log 14). -/
def State.reset : State where
  phase := .resetHeld
  clock := 0
  haltAsserted := false
  time := 0
  seq := 0
  calendar := []
  records := Vector.replicate 48 none
  runState := .stopped
  budget := .unlimited
  stopRecord := StopRecord.reset
  furtherFaults := 0
  boards := Vector.replicate 64 Board.powerOn
  pointer := 0
  escalation := 0
  slot := .empty
  listCursor := 0
  frame := none
  sdo := []
  filterK := Config.defaultFilterK
  escalationE := Config.defaultEscalationE
  events := Events.none
  mask := 0
  freeCount := 0
  pending := []

end Sys2Proof.Machine
end

