-- ==== Sys2Proof/Machine/Ops.lean ====
section
/-! DEFINITION. The named operations over the state: reading and writing one board entry or one record, joining frames
to transmit queues, and the Edge Calendar's insertion and removal. -/

namespace Sys2Proof.Machine

/-- What a step answers. -/
abbrev Result := Host.Outcome State Fault Refusal

/-! Board entries (R112) -/

def State.board (s : State) (b : BoardNo) : Board := s.boards[b]

def State.setBoard (s : State) (b : BoardNo) (e : Board) : State :=
  { s with boards := s.boards.set b e }

/-- Change one board entry. -/
def State.modifyBoard (s : State) (b : BoardNo) (f : Board → Board) : State := s.setBoard b (f (s.board b))

/-- Change every board entry. -/
def State.mapBoards (s : State) (f : BoardNo → Board → Board) : State :=
  { s with boards := Vector.ofFn fun b => f b (s.board b) }

/-- Every member satisfies `p`. -/
def State.everyMember (s : State) (p : Board → Bool) : Bool :=
  decide (∀ b : BoardNo, (s.board b).member = true → p (s.board b) = true)

/-- At least one board is a member. -/
def State.anyMember (s : State) : Bool := decide (∃ b : BoardNo, (s.board b).member = true)

/-! Domain records (R15) -/

/-- The record of a number; none is a FREE record. -/
def State.domain (s : State) (d : DomainNo) : Option Domain := s.records[d]

def State.setDomain (s : State) (d : DomainNo) (r : Option Domain) : State :=
  { s with records := s.records.set d r }

/-- Change a non-FREE record; a FREE one stays FREE. -/
def State.modifyDomain (s : State) (d : DomainNo) (f : Domain → Domain) : State :=
  s.setDomain d ((s.domain d).map f)

/-- Change every non-FREE record. -/
def State.mapDomains (s : State) (f : DomainNo → Domain → Domain) : State :=
  { s with records := Vector.ofFn fun d => (s.domain d).map (f d) }

/-- The domain numbers, lowest first. -/
def allDomains : List DomainNo := List.finRange 48

/-- The board numbers, lowest first. -/
def allBoards : List BoardNo := List.finRange 64

def Domain.isActive (r : Domain) : Bool :=
  match r.life with
  | .active _ => true
  | _ => false

/-- The park level (R5): a companion's is LOW. -/
def Domain.park (r : Domain) : Level :=
  match r.source with
  | .primary p => p.park
  | .companion _ => .low

/-- The pending change of an ACTIVE record (R44). -/
def Domain.pendingChange (r : Domain) : Option Pending :=
  match r.life with
  | .active p => some p
  | _ => none

/-- The companion's number in a primary's record (R15). -/
def Domain.companionNo (r : Domain) : Option DomainNo :=
  match r.source with
  | .primary p => p.companion
  | .companion _ => none

/-- The parent of a companion and its waveform values (R7, R28). -/
def State.parentOf (s : State) (c : Companion) : Option (Domain × Primary) :=
  match s.domain c.parent with
  | some r =>
    match r.source with
    | .primary p => some (r, p)
    | .companion _ => none
  | none => none

/-- A primary whose companion is ACTIVE (R52, R59, R61). -/
def State.companionActive (s : State) (r : Domain) : Bool :=
  match r.companionNo with
  | none => false
  | some c =>
    match s.domain c with
    | some x => x.isActive
    | none => false

/-- Write the companion field of a primary; a companion's record is left alone (R26, R28). -/
def Domain.withCompanion (r : Domain) (c : Option DomainNo) : Domain :=
  match r.source with
  | .primary p => { r with source := .primary { p with companion := c } }
  | .companion _ => r

/-- A record becomes FREE with every field; a companion's parent loses its companion field at the same instant
(R28, R56). -/
def State.freeDomain (s : State) (d : DomainNo) : State :=
  match s.domain d with
  | some { source := .companion c, .. } =>
    (s.modifyDomain c.parent fun r => r.withCompanion none).setDomain d none
  | _ => s.setDomain d none

/-! The Edge Calendar (R67) -/

/-- Entries sort by time, and at equal times by domain number (R67). -/
def Entry.before (x y : Entry) : Bool :=
  decide (x.time < y.time ∨ (x.time = y.time ∧ x.domain.val < y.domain.val))

/-- Insert by time and domain number. -/
def Calendar.insert (x : Entry) : List Entry → List Entry
  | [] => [x]
  | y :: ys => if x.before y then x :: y :: ys else y :: Calendar.insert x ys

/-- Remove a domain's entry. -/
def Calendar.erase (d : DomainNo) (c : List Entry) : List Entry := c.filter fun e => !decide (e.domain = d)

/-- A domain's entry, its next edge (R15 note). -/
def Calendar.entry? (c : List Entry) (d : DomainNo) : Option Entry := c.find? fun e => decide (e.domain = d)

def State.nextEdge (s : State) (d : DomainNo) : Option Entry := Calendar.entry? s.calendar d

/-- Insert an entry into the calendar. -/
def State.insertEntry (s : State) (x : Entry) : State := { s with calendar := Calendar.insert x s.calendar }

/-- Move a domain's entry (R71). -/
def State.rekey (s : State) (x : Entry) : State :=
  { s with calendar := Calendar.insert x (Calendar.erase x.domain s.calendar) }

/-! Transmit queues (R122, R147) -/

/-- Frames join the tail of one board's queue. -/
def Board.enqueue (e : Board) (fs : List Frame) : Board := { e with txQueue := e.txQueue ++ fs }

def State.enqueue (s : State) (b : BoardNo) (f : Frame) : State := s.modifyBoard b fun e => e.enqueue [f]

def Board.isLinked (e : Board) : Bool := decide (e.link = .linked)

/-- A notice is queued for each board of `dest` that is LINKED, member or not (R16, R62). -/
def State.queueNotice (s : State) (n : Notice) (dest : BoardSet) : State :=
  s.mapBoards fun b e => if e.isLinked && Bits.has dest b then e.enqueue [.notice n] else e

/-- Notices in the order of origin (R63). -/
def State.queueNotices (s : State) (l : List (Notice × BoardSet)) : State :=
  l.foldl (fun a n => a.queueNotice n.1 n.2) s

/-- A reply frame that occupies slot `t`: any reply with its tag but a SLOT_BUSY one (R162, R163). -/
def Frame.occupies (t : Tag) : Frame → Bool
  | .reply t' _ status _ => decide (t' = t) && !decide (status = .slotBusy)
  | _ => false

/-- One request slot written. -/
def Board.setSlot (e : Board) (t : Tag) (x : BoardSlot) : Board := { e with slots := e.slots.set t x }

def Board.slot (e : Board) (t : Tag) : BoardSlot := e.slots[t]

/-- The frame at the head has been sent (R122); a reply's slot becomes EMPTY (R163). -/
def Board.sendHead (e : Board) : Board :=
  match e.txQueue with
  | [] => e
  | f :: fs =>
    match f with
    | .reply t _ status _ => if status = .slotBusy then { e with txQueue := fs } else ({ e with txQueue := fs }).setSlot t .empty
    | _ => { e with txQueue := fs }

/-- Frames are sent from the head, each whole, until one that occupies slot `t` has been sent: those ahead of it have
gone as well (R122). The number bounds the recursion. -/
def Board.sendThrough (t : Tag) : Nat → Board → Board
  | 0, e => e
  | n + 1, e =>
    match e.txQueue with
    | [] => e
    | f :: _ => if f.occupies t then e.sendHead else (e.sendHead).sendThrough t n

/-- The queue holds a reply that occupies slot `t`. -/
def Board.replyQueued (e : Board) (t : Tag) : Bool := e.txQueue.any (Frame.occupies t)

/-- Events that find the CT64 in reset or initialising are not taken (R89, R113). -/
def State.isReady (s : State) : Bool := decide (s.phase = .ready)

/-- Real time has reached an instant. -/
def State.passTo (s : State) (instant : Nat) : State := { s with clock := max s.clock instant }

end Sys2Proof.Machine
end

