-- ==== Sys2Proof/Machine/Flags.lean ====
section
/-! DEFINITION. The Attention Unit: raising events, their levels, the mask and ATTN_N (R178 to R181). -/

namespace Sys2Proof.Machine

/-- Raising sets a flag or adds a number to a set; an event already pending is left as it is (R178). -/
def Events.raise (v : Events) : Event → Events
  | .resetDone => { v with resetDone := true }
  | .linked b => { v with linked := Bits.add v.linked b }
  | .count d => { v with count := Bits.add v.count d }
  | .stopped => { v with stopped := true }
  | .linkDown b => { v with linkDown := Bits.add v.linkDown b }
  | .boardFault b => { v with boardFault := Bits.add v.boardFault b }
  | .halted => { v with halted := true }
  | .haltLine => { v with haltLine := true }

/-- Whether an event is pending. -/
def Events.has (v : Events) : Event → Bool
  | .resetDone => v.resetDone
  | .linked b => Bits.has v.linked b
  | .count d => Bits.has v.count d
  | .stopped => v.stopped
  | .linkDown b => Bits.has v.linkDown b
  | .boardFault b => Bits.has v.boardFault b
  | .halted => v.halted
  | .haltLine => v.haltLine

/-- Attention levels (R178). -/
def Event.level : Event → Nat
  | .resetDone => 1
  | .linked _ => 1
  | .count _ => 2
  | .stopped => 3
  | .linkDown _ => 4
  | .boardFault _ => 5
  | .halted => 6
  | .haltLine => 7

def State.raise (s : State) (e : Event) : State := { s with events := s.events.raise e }

/-- The highest level of a pending event, 0 when none is pending. -/
def Events.topLevel (v : Events) : Nat :=
  if v.haltLine then 7
  else if v.halted then 6
  else if v.boardFault ≠ 0 then 5
  else if v.linkDown ≠ 0 then 4
  else if v.stopped then 3
  else if v.count ≠ 0 then 2
  else if v.linked ≠ 0 then 1
  else if v.resetDone then 1
  else 0

/-- ATTN_N is driven LOW while a pending event is above the mask level, or HALT_LINE is pending (R179). -/
def State.attnAsserted (s : State) : Bool := s.events.haltLine || decide (s.mask < s.events.topLevel)

end Sys2Proof.Machine
end

