-- ==== Sys2Proof/Machine/Waveform.lean ====
section
/-! DEFINITION. Chapter 1's arithmetic: derived waveforms, first edges and next edges (R3 to R14). -/

namespace Sys2Proof.Machine

/-- The earliest time not before `from_` that is congruent to `r` modulo `period`: computed exactly in the integers,
the mod giving a value from 0 to period - 1 (R6, R10). -/
def firstAtOrAfter (from_ r period : Nat) : Nat := from_ + (((r : Int) - (from_ : Int)) % (period : Int)).toNat

/-- Period, high time and phase of a waveform, as a reply or a notice reports them. -/
structure Wave where
  period : Nat
  high : Nat
  phase : Nat
  deriving DecidableEq, Repr

/-- The derived waveform of a companion with gap `g` (R7). -/
def Primary.derived (p : Primary) (g : Nat) : Wave where
  period := p.period
  high := p.period - p.high - 2 * g
  phase := (p.phase + p.high + g) % p.period

/-- The gap constraint between a period, a high time and a gap (R8). -/
def gapOk (period high gap : Nat) : Bool := decide (high + 2 * gap + 1 ≤ period)

/-- The waveform reported for a record: its own, or the one derived from its parent (R7, R30; log 15 where there is no
parent). -/
def State.wave (s : State) (r : Domain) : Wave :=
  match r.source with
  | .primary p => ⟨p.period, p.high, p.phase⟩
  | .companion c =>
    match s.parentOf c with
    | some (_, p) => p.derived c.gap
    | none => ⟨0, 0, 0⟩

/-- The first edge of a primary (R6). -/
def Primary.firstEdge (p : Primary) (d : DomainNo) (now : Nat) : Entry :=
  match p.park with
  | .low => ⟨firstAtOrAfter (now + 1) p.phase p.period, d, .rise⟩
  | .high => ⟨firstAtOrAfter (now + 1) (p.phase + p.high) p.period, d, .fall⟩

/-- The first edge of a companion, given the instant L of R10. -/
def Companion.firstEdge (c : Companion) (p : Primary) (d : DomainNo) (l : Nat) : Entry :=
  ⟨firstAtOrAfter (l + c.gap) (p.phase + p.high + c.gap) p.period, d, .rise⟩

/-- R10's L at START and RESUME: now while the parent is LOW, the parent's next FALL while it is HIGH. -/
def State.startBound (s : State) (c : Companion) (parent : Domain) : Nat :=
  match parent.level with
  | .low => s.time
  | .high =>
    match s.nextEdge c.parent with
    | some e => e.time
    | none => s.time

/-- The first edge at START and RESUME (R6, R10). -/
def State.firstEdge (s : State) (d : DomainNo) (r : Domain) : Entry :=
  match r.source with
  | .primary p => p.firstEdge d s.time
  | .companion c =>
    match s.parentOf c with
    | some (parent, p) => c.firstEdge p d (s.startBound c parent)
    | none => ⟨s.time + 1, d, .rise⟩

/-- The first edge at REWIND, now being 0: a companion's L is 0 under a park-LOW parent and the parent's first FALL
under a park-HIGH one (R14). -/
def State.rewindEdge (s : State) (d : DomainNo) (r : Domain) : Entry :=
  match r.source with
  | .primary p => p.firstEdge d 0
  | .companion c =>
    match s.parentOf c with
    | some (_, p) =>
      match p.park with
      | .low => c.firstEdge p d 0
      | .high => c.firstEdge p d (p.firstEdge c.parent 0).time
    | none => ⟨1, d, .rise⟩

/-- The edge after one processed at `t`, from the waveform in force (R4, R9). -/
def State.edgeAfter (s : State) (d : DomainNo) (r : Domain) (kind : EdgeKind) (t : Nat) : Entry :=
  match r.source with
  | .primary p =>
    match kind with
    | .rise => ⟨t + p.high, d, .fall⟩
    | .fall => ⟨t + p.period - p.high, d, .rise⟩
  | .companion c =>
    match s.parentOf c with
    | some (_, p) =>
      match kind with
      | .rise => ⟨t + (p.period - p.high - 2 * c.gap), d, .fall⟩
      | .fall => ⟨t + p.high + 2 * c.gap, d, .rise⟩
    | none => ⟨t + 1, d, .rise⟩

/-- The new level of an edge (R4). -/
def EdgeKind.level : EdgeKind → Level
  | .rise => .high
  | .fall => .low

/-- A revision gives a primary its new period and high time with a phase (R11, R13). -/
def Domain.revisePrimary (r : Domain) (period high phase : Nat) : Domain :=
  match r.source with
  | .primary p =>
    { r with
      source := .primary { p with period := period, high := high, phase := phase }
      generation := r.generation + 1 }
  | .companion _ => r

/-- A revision gives a companion its new gap (R12, R13). -/
def Domain.reviseCompanion (r : Domain) (gap : Nat) : Domain :=
  match r.source with
  | .companion c => { r with source := .companion { c with gap := gap }, generation := r.generation + 1 }
  | .primary _ => r

/-- The phase of a primary's record, 0 for a companion. -/
def Domain.phase (r : Domain) : Nat :=
  match r.source with
  | .primary p => p.phase
  | .companion _ => 0

/-- The gap of a companion's record, 0 for a primary (R182's REVISED). -/
def Domain.gap (r : Domain) : Nat :=
  match r.source with
  | .primary _ => 0
  | .companion c => c.gap

/-- The REVISED notice of a record as it stands (R62). -/
def State.revisedNotice (s : State) (d : DomainNo) (r : Domain) : Notice :=
  .revised d r.generation (s.wave r).period (s.wave r).high (s.wave r).phase r.gap

end Sys2Proof.Machine
end

