-- ==== Sys2Proof/Machine/Layouts.lean ====
section
/-! DEFINITION. The bytes the CT64 sends: link frames (R182) and reply records (R186, R187). -/

namespace Sys2Proof.Machine

/-- An entry byte of a SET PART: domain in bits 5-0, level in bit 7 (R182). -/
def entryByte (x : DomainNo × Level) : Byte :=
  BitVec.ofNat 8 (x.1.val + (match x.2 with
    | .high => 128
    | .low => 0))

/-- The part byte: index in bits 3-0, last-part flag in bit 7 (R182). -/
def SetPart.partByte (p : SetPart) : Byte := BitVec.ofNat 8 (p.index + (if p.last then 128 else 0))

/-- The payload of a SET PART (R182). -/
def SetPart.payload (p : SetPart) : List Byte :=
  [match p.kind with
    | .edge => 0x00#8
    | .level => 0x01#8] ++
  Bytes.be 2 p.seq16.toNat ++ Bytes.be 6 p.time ++ [p.partByte, BitVec.ofNat 8 p.entries.length] ++
  p.entries.map entryByte

def DomainNo.byte (d : DomainNo) : Byte := BitVec.ofNat 8 d.val

def BoardNo.byte (b : BoardNo) : Byte := BitVec.ofNat 8 b.val

/-- The payload of a NOTICE (R182). -/
def Notice.payload : Notice → List Byte
  | .started d t => [0x01#8, DomainNo.byte d] ++ Bytes.be 8 t
  | .resumed d t => [0x02#8, DomainNo.byte d] ++ Bytes.be 8 t
  | .revised d g period high phase gap =>
    [0x03#8, DomainNo.byte d] ++ Bytes.be 2 g.toNat ++ Bytes.be 2 period ++ Bytes.be 2 high ++ Bytes.be 2 phase ++
      Bytes.be 1 gap
  | .paused d r => [0x04#8, DomainNo.byte d, r.byte]
  | .retired d => [0x05#8, DomainNo.byte d]
  | .attached d level lastSeq => [0x06#8, DomainNo.byte d, level.byte] ++ Bytes.be 4 lastSeq.toNat
  | .detached d => [0x07#8, DomainNo.byte d]

/-- Kind byte and payload of a frame the CT64 sends (R182). -/
def Frame.kindAndPayload : Frame → Byte × List Byte
  | .probe n => (0x81#8, Bytes.be 1 n)
  | .linkReady b allowance roundTrip => (0x82#8, [BoardNo.byte b] ++ Bytes.be 4 allowance ++ Bytes.be 2 roundTrip)
  | .setPart p => (0x83#8, p.payload)
  | .notice n => (0x84#8, n.payload)
  | .reply tag kind status data => (0x85#8, [requestByte tag kind, status.byte] ++ data)
  | .holdAnswer cause status lastSeq => (0x86#8, [cause, status.byte] ++ Bytes.be 4 lastSeq.toNat)
  | .stopAnswer code status lastSeq => (0x87#8, [code, status.byte] ++ Bytes.be 4 lastSeq.toNat)

/-- The bytes of a frame after its start delimiter, with its CRC (R182). -/
def Frame.bytes (f : Frame) : List Byte := linkFrame f.kindAndPayload.1 f.kindAndPayload.2

/-- The PROBE that a training link has sent last and waits for (R116). -/
def Training.probeFrame (t : Training) : Frame := .probe t.probeCount

/-- The ack allowance in 10 ns units (R130, R144). -/
def Board.allowance (e : Board) : Nat := Config.unitsPerMicrosecond * e.ackBase + 4 * e.roundTrip

/-- Owner byte: the board number, or FFh for SERVICE (R187). -/
def Owner.byte : Owner → Byte
  | .service => 0xFF#8
  | .board b => BoardNo.byte b

def optionalDomain : Option DomainNo → Byte
  | none => 0xFF#8
  | some d => DomainNo.byte d

/-- Bytes 13 to 15 of a snapshot: parent, gap, companion (R187). -/
def Source.linkBytes : Source → List Byte
  | .primary p => [0xFF#8, 0x00#8, optionalDomain p.companion]
  | .companion c => [DomainNo.byte c.parent, BitVec.ofNat 8 c.gap, 0xFF#8]

/-- State byte (R187). -/
def Life.byte : Life → Byte
  | .defined => 0x01#8
  | .active _ => 0x02#8
  | .paused _ => 0x03#8

def Source.byte : Source → Byte
  | .primary _ => 0x00#8
  | .companion _ => 0x01#8

/-- Bytes 23 to 27: stop action and stop count (R187). -/
def stopBytes : Option StopSetting → List Byte
  | none => [0x00#8] ++ Bytes.be 4 0
  | some x => [x.action.byte] ++ Bytes.be 4 x.count

/-- Bytes 28 to 36: next edge kind and time (R187). -/
def nextEdgeBytes : Option Entry → List Byte
  | none => [0x00#8] ++ Bytes.be 8 0
  | some e => [match e.kind with
      | .rise => 0x01#8
      | .fall => 0x02#8] ++ Bytes.be 8 e.time

/-- Bytes 37 to 42: pending change and its values (R187). -/
def Life.pendingBytes : Life → List Byte
  | .active .nothing => [0x01#8] ++ Bytes.be 5 0
  | .active (.revisePrimary period high) => [0x02#8] ++ Bytes.be 2 period ++ Bytes.be 2 high ++ [0x00#8]
  | .active (.reviseCompanion gap) => [0x02#8] ++ Bytes.be 4 0 ++ Bytes.be 1 gap
  | .active (.pause _) => [0x03#8] ++ Bytes.be 5 0
  | .active .retire => [0x04#8] ++ Bytes.be 5 0
  | .defined => [0x00#8] ++ Bytes.be 5 0
  | .paused _ => [0x00#8] ++ Bytes.be 5 0

/-- Byte 43: pause reason (R187). -/
def Life.pauseByte : Life → Byte
  | .paused r => r.byte
  | .defined => 0x00#8
  | .active _ => 0x00#8

/-- Bytes 45 on: the requester's own subscription, or the whole set for the service (R30, R187). -/
def subscriberBytes (who : Owner) (set : BoardSet) : List Byte :=
  match who with
  | .service => Bytes.ofSet 8 set
  | .board b => [if Bits.has set b then 0x01#8 else 0x00#8]

/-- The domain snapshot of LOOKUP and LIST (R30, R187). The next edge is reported while the record is ACTIVE. -/
def State.snapshot (s : State) (who : Owner) (d : DomainNo) (r : Domain) : List Byte :=
  [DomainNo.byte d, r.life.byte] ++ Bytes.be 2 r.label ++ [r.owner.byte, r.source.byte, r.park.byte] ++
  Bytes.be 2 (s.wave r).period ++ Bytes.be 2 (s.wave r).high ++ Bytes.be 2 (s.wave r).phase ++
  r.source.linkBytes ++ [r.level.byte] ++ Bytes.be 2 r.generation.toNat ++ Bytes.be 4 r.count ++
  stopBytes r.stop ++ nextEdgeBytes (if r.isActive then s.nextEdge d else none) ++ r.life.pendingBytes ++
  [r.life.pauseByte, BitVec.ofNat 8 (Bits.card r.subscribers)] ++ subscriberBytes who r.subscribers

/-- Bytes 11 to 17 of the run record: budget form and value (R92, R187). -/
def Budget.bytes : Budget → List Byte
  | .unlimited => [0x00#8] ++ Bytes.be 6 0
  | .sets n => [0x01#8] ++ Bytes.be 6 n
  | .untilTime l => [0x02#8] ++ Bytes.be 6 l

/-- Bytes 18 to 32: the stop cause record (R100, R187). -/
def StopRecord.bytes (r : StopRecord) : List Byte :=
  [r.cause.byte,
    BitVec.ofNat 8 ((if r.board.isSome then 1 else 0) + (if r.domain.isSome then 2 else 0) +
      (if r.code.isSome then 4 else 0)),
    (r.board.map BoardNo.byte).getD 0x00#8, (r.domain.map DomainNo.byte).getD 0x00#8, r.code.getD 0x00#8] ++
  Bytes.be 6 r.time ++ Bytes.be 4 r.seq.toNat

/-- The run record of READ RUN, 34 bytes (R101, R187). -/
def State.runRecord (s : State) : List Byte :=
  [s.runState.byte] ++ Bytes.be 6 s.time ++ Bytes.be 4 s.seq.toNat ++ s.budget.bytes ++ s.stopRecord.bytes ++
  Bytes.be 1 s.furtherFaults

/-- R183. -/
def Link.byte : Link → Byte
  | .down => 0x00#8
  | .training _ => 0x01#8
  | .linked => 0x02#8
  | .fault => 0x03#8

/-- The board record of READ BOARD, 28 bytes (R131, R187). -/
def Board.record (e : Board) : List Byte :=
  [e.link.byte, if e.member then 0x01#8 else 0x00#8, FaultKind.byteOf e.lastFault] ++ Bytes.be 2 e.roundTrip ++
  Bytes.be 1 ((e.capacity.map Capacity.entries).getD 0) ++ Bytes.be 1 e.window ++ Bytes.be 2 e.holdLimit ++
  Bytes.be 2 e.ackBase ++ Bytes.be 4 e.allowance ++ Bytes.be 1 e.outstanding ++ Bytes.ofSet 1 e.held ++
  Bytes.ofSet 1 e.timedOut ++ Bytes.be 4 e.ackedSets.toNat ++ Bytes.be 4 e.holdsTaken.toNat ++
  Bytes.be 2 e.longestAckWait

/-- The event sets of READ EVENTS, 31 bytes (R180, R187). -/
def Events.bytes (v : Events) : List Byte :=
  [BitVec.ofNat 8 ((if v.resetDone then 1 else 0) + (if v.stopped then 2 else 0) + (if v.halted then 4 else 0) +
    (if v.haltLine then 8 else 0))] ++
  Bytes.ofSet 8 v.linked ++ Bytes.ofSet 8 v.linkDown ++ Bytes.ofSet 8 v.boardFault ++ Bytes.ofSet 6 v.count

/-- What READ REPLY shifts out after the status byte before the 00h filler (R174, R186). -/
def ServiceSlot.bytes : ServiceSlot → List Byte
  | .empty => [0x00#8]
  | .waiting _ _ => [0x01#8]
  | .done code status data => [0x02#8, code, status.byte, BitVec.ofNat 8 data.length] ++ data

end Sys2Proof.Machine
end

