-- ==== Sys2Proof/Machine/RunOps.lean ====
section
/-! DEFINITION. The Run Controller's shared operations: the stop cause record, entering and completing a draining, and
halting (R98, R100, R102, R103). -/

namespace Sys2Proof.Machine

/-- The record is written whole, with the time and the counter at that instant (R100). -/
def State.writeRecord (s : State) (cause : StopCause) (board : Option BoardNo) (domain : Option DomainNo)
    (code : Option Byte) : State :=
  { s with stopRecord := ⟨cause, board, domain, code, s.time, s.seq⟩ }

/-- The run state leaves RUNNING: every hold timer is disarmed (R154). -/
def State.disarmHoldTimers (s : State) : State := s.mapBoards fun _ e => { e with holdTimer := none }

/-- Every member has outstanding 0. -/
def State.drained (s : State) : Bool := s.everyMember fun e => decide (e.outstanding = 0)

/-- A draining whose members all stand at 0 completes: STOPPED, and STOPPED is raised (R98). -/
def State.completeDraining (s : State) : State :=
  if s.runState = .draining ∧ s.drained = true then ({ s with runState := .stopped }).raise .stopped else s

/-- Entry to DRAINING with the cause of that entry; it completes at once when every member stands at 0 (R98, R100). -/
def State.enterDraining (s : State) (cause : StopCause) (board : Option BoardNo) (domain : Option DomainNo)
    (code : Option Byte) : State :=
  (({ s with runState := .draining }).writeRecord cause board domain code).disarmHoldTimers.completeDraining

/-- Entry to HALTED (R102, R103): the record, the HALTED event, and every hold timer disarmed. -/
def State.enterHalted (s : State) (cause : StopCause) (board : Option BoardNo) (code : Option Byte) : State :=
  (({ s with runState := .halted }).writeRecord cause board none code).disarmHoldTimers.raise .halted

/-- A member has left LINKED, for FAULT with its kind or for DOWN (R102). In HALTED it only counts. -/
def State.memberLeft (s : State) (b : BoardNo) (kind : Option FaultKind) : State :=
  if s.runState = .halted then { s with furtherFaults := min 255 (s.furtherFaults + 1) }
  else
    match kind with
    | some k => s.enterHalted .boardFault (some b) (some k.byte)
    | none => s.enterHalted .linkLost (some b) none

/-- An assertion of HALT_N taken as an event (R103). -/
def State.takeHaltLine (s : State) : State :=
  if s.runState = .halted then s.raise .haltLine
  else (s.raise .haltLine).enterHalted .haltLine none none

/-- The advance condition (R90). -/
def Board.readyForAdvance (e : Board) : Bool :=
  e.isLinked && decide (e.held = 0) && decide (e.outstanding < e.window)

def State.advanceCondition (s : State) : Bool :=
  decide (s.runState = .running) && decide (s.calendar ≠ []) && s.everyMember Board.readyForAdvance

end Sys2Proof.Machine
end

