-- ==== Sys2Proof/Machine/LinkOps.lean ====
section
/-! DEFINITION. The link controller's shared operations: leaving LINKED, faults and the training attempt (R114 to
R124). -/

namespace Sys2Proof.Machine

/-- The board entry of a link that leaves LINKED (R124): outstanding 0, timers stopped, holds dropped, slots and
transmit queue cleared; the rest is kept. -/
def Board.leaveLinked (e : Board) (link : Link) : Board :=
  { e with
    link := link
    outstanding := 0
    ackTimer := none
    held := 0
    holdTimer := none
    txQueue := []
    slots := Vector.replicate 2 .empty }

/-- A LINKED board is faulted (R123, R124): the entry, BOARD_FAULT(b), and a member's departure reported. -/
def State.faultLinked (s : State) (b : BoardNo) (kind : FaultKind) : State :=
  let s' := (s.setBoard b { (s.board b).leaveLinked .fault with lastFault := some kind }).raise (.boardFault b)
  if (s.board b).member then s'.memberLeft b (some kind) else s'

/-- A LINKED link goes DOWN by loss of signal (R115, R124). -/
def State.dropLinked (s : State) (b : BoardNo) : State :=
  let s' := (s.setBoard b ((s.board b).leaveLinked .down)).raise (.linkDown b)
  if (s.board b).member then s'.memberLeft b none else s'

/-- A cause of R123 taken: it faults a LINKED board, and finds nothing to do in any other state (R125). -/
def State.faultBoard (s : State) (b : BoardNo) (kind : FaultKind) : State :=
  match (s.board b).link with
  | .linked => s.faultLinked b kind
  | .down => s
  | .training _ => s
  | .fault => s

/-- A training attempt begins: K is read, the run is empty, and the first PROBE is sent (R116; log 6). -/
def Training.begin (filterK clock : Nat) : Training where
  filterK := filterK
  probeCount := 1
  run := []
  sent := clock

/-- The instant at which the wait for the current probe's answer ends (R116). -/
def Training.deadline (t : Training) : Nat := t.sent + Config.probeWait

/-- The round trip of a probe answered at `clock` (R117): the time since its PROBE was sent, in 10 ns units of REFCLK,
and no less than the 1 unit that R117 gives as the least (log 20). -/
def Training.roundTrip (t : Training) (clock : Nat) : Nat := max 1 (clock - t.sent)

def State.startTraining (s : State) (b : BoardNo) : State :=
  s.modifyBoard b fun e => { e with link := .training (Training.begin s.filterK s.clock) }

/-- The largest and the smallest value of a run. -/
def largest (l : List Nat) : Nat := l.foldl max 0

def smallest : List Nat → Nat
  | [] => 0
  | x :: xs => xs.foldl min x

/-- Remove the oldest values while the spread exceeds 2 units (R117). -/
def trimRun : List Nat → List Nat
  | [] => []
  | x :: xs =>
    if largest (x :: xs) - smallest (x :: xs) > Config.agreementSpread then trimRun xs else x :: xs

/-- An answered probe joins the agreement run (R117). -/
def agree (run : List Nat) (roundTrip : Nat) : List Nat := trimRun (run ++ [roundTrip])

/-- The attempt fails: FAULT with TRAIN_FAILED; nothing is reported to the Run Controller (R119). -/
def State.trainFailed (s : State) (b : BoardNo) : State :=
  (s.modifyBoard b fun e => { e with link := .fault, lastFault := some .trainFailed }).raise (.boardFault b)

/-- A probe has ended without success: the attempt fails after its 64th probe, and otherwise the next PROBE is sent
(R116, R119). -/
def State.nextProbe (s : State) (b : BoardNo) (t : Training) (run : List Nat) : State :=
  if Config.probeLimit ≤ t.probeCount then s.trainFailed b
  else
    s.modifyBoard b fun e =>
      { e with link := .training { t with probeCount := t.probeCount + 1, run := run, sent := s.clock } }

/-- The attempt succeeds (R118): round trip, capacity, LINKED, LINK READY at the head of the queue, LINKED(b). -/
def Board.enterLinked (e : Board) (b : BoardNo) (run : List Nat) (capacity : Capacity) : Board :=
  let e' := { e with link := .linked, roundTrip := largest run, capacity := some capacity }
  { e' with txQueue := .linkReady b e'.allowance e'.roundTrip :: e'.txQueue }

/-- An answered probe (R117 to R119). -/
def State.probeAnswered (s : State) (b : BoardNo) (t : Training) (roundTrip : Nat) (capacity : Capacity) : State :=
  if (agree t.run roundTrip).length = t.filterK then
    (s.modifyBoard b fun e => e.enterLinked b (agree t.run roundTrip) capacity).raise (.linked b)
  else s.nextProbe b t (agree t.run roundTrip)

/-- A missing probe empties the run (R116, R117). -/
def State.probeMissing (s : State) (b : BoardNo) (t : Training) : State := s.nextProbe b t []

/-- The waits of a training attempt that end before an instant, as many as `n`: each ends at its own deadline with its
probe missing, and the next probe is sent there (R116, R119). -/
def State.endWaits (b : BoardNo) (instant : Nat) : Nat → State → State
  | 0, s => s
  | n + 1, s =>
    match (s.board b).link with
    | .training t =>
      if t.deadline < instant then ((s.passTo t.deadline).probeMissing b t).endWaits b instant n else s
    | .down => s
    | .linked => s
    | .fault => s

/-- The probes an attempt has left, the waiting one included (R119). -/
def Training.probesLeft (t : Training) : Nat := Config.probeLimit - t.probeCount + 1

/-- A reception at an instant comes to the probe that waits then: every wait that is over by then has ended at its own
instant (R116; log 20). -/
def State.awaitReception (s : State) (b : BoardNo) (instant : Nat) : State :=
  match (s.board b).link with
  | .training t => s.endWaits b instant t.probesLeft
  | .down => s
  | .linked => s
  | .fault => s

/-- A received frame that fails its check (R120): a LINKED board is faulted, the training probe that waits is missing. -/
def State.badReception (s : State) (b : BoardNo) (kind : FaultKind) : State :=
  let s' := s.awaitReception b s.clock
  match (s'.board b).link with
  | .linked => s'.faultLinked b kind
  | .training t => s'.probeMissing b t
  | .down => s'
  | .fault => s'

/-- An ECHO received at an instant comes to the probe that waits then (R116 to R119): the probe is answered, with the
round trip measured there, when the ECHO carries its number and one of the four codes, and missing otherwise. Outside
TRAINING it is not taken (R114, R121). -/
def State.receiveEcho (s : State) (b : BoardNo) (number capacityCode : Byte) (instant : Nat) : State :=
  let s' := s.awaitReception b instant
  match (s'.board b).link with
  | .training t =>
    let s'' := s'.passTo instant
    match Capacity.ofCode capacityCode with
    | some c =>
      if number.toNat = t.probeCount then s''.probeAnswered b t (t.roundTrip s''.clock) c else s''.probeMissing b t
    | none => s''.probeMissing b t
  | .down => s'
  | .linked => s'
  | .fault => s'

end Sys2Proof.Machine
end

