-- ==== Sys2Proof/Machine/Operands.lean ====
section
/-! DEFINITION. Every operand form: the payload bytes of each command read by R184 and R185, step 1 of the checks. A
reader answers none where step 1 answers BAD_PARAM. -/

namespace Sys2Proof.Machine

/-- A domain number, 0 to 47 (R23). -/
def domainOf (x : Byte) : Option DomainNo := if h : x.toNat < 48 then some ⟨x.toNat, h⟩ else none

/-- A board number, 0 to 63 (R33, R126 to R131). -/
def boardOf (x : Byte) : Option BoardNo := if h : x.toNat < 64 then some ⟨x.toNat, h⟩ else none

/-- Stop action byte and stop count (R185): both 0 is an absent setting. -/
def stopOf (action : Byte) (count : Nat) : Option (Option StopSetting) :=
  if action = 0x00#8 then (if count = 0 then some none else none)
  else if count = 0 then none
  else if action = 0x01#8 then some (some ⟨count, .pauseDomain⟩)
  else if action = 0x02#8 then some (some ⟨count, .stopCabinet⟩)
  else if action = 0x03#8 then some (some ⟨count, .notify⟩)
  else none

/-- What CREATE asks for (R25, R26). -/
structure CreateParams where
  label : Nat
  source : Source
  stop : Option StopSetting
  deriving DecidableEq, Repr

/-- A primary's fields in CREATE (R27 step 1). -/
def primaryOf (period high phase : Nat) (park : Byte) : Option Source :=
  match Level.ofByte park with
  | none => none
  | some level =>
    if 2 ≤ period ∧ 1 ≤ high ∧ high < period ∧ phase < period then
      some (.primary ⟨period, high, phase, level, none⟩)
    else none

/-- A companion's fields in CREATE (R27 step 1). -/
def companionOf (parent gap : Byte) : Option Source :=
  match domainOf parent with
  | none => none
  | some d => if gap = 0x00#8 then none else some (.companion ⟨d, gap.toNat⟩)

/-- CREATE: label, kind, period, high, phase, park level, parent, gap, stop action, stop count. The fields of the
other kind are ignored (R185). -/
def parseCreate (p : List Byte) : Option CreateParams :=
  match p with
  | [l1, l2, kind, p1, p2, h1, h2, f1, f2, park, parent, gap, action, c1, c2, c3, c4] =>
    match stopOf action (Bytes.toNat [c1, c2, c3, c4]) with
    | none => none
    | some stop =>
      if Bytes.toNat [l1, l2] = 0 then none
      else
        let source :=
          if kind = 0x00#8 then primaryOf (Bytes.toNat [p1, p2]) (Bytes.toNat [h1, h2]) (Bytes.toNat [f1, f2]) park
          else if kind = 0x01#8 then companionOf parent gap
          else none
        source.map fun src => ⟨Bytes.toNat [l1, l2], src, stop⟩
  | _ => none

/-- FIND: a label, 1 to 65535 (R29). -/
def parseLabel (p : List Byte) : Option Nat :=
  match p with
  | [l1, l2] => if Bytes.toNat [l1, l2] = 0 then none else some (Bytes.toNat [l1, l2])
  | _ => none

/-- The requests that carry one domain number. -/
def parseDomain (p : List Byte) : Option DomainNo :=
  match p with
  | [x] => domainOf x
  | _ => none

/-- ATTACH and DETACH: from the service a domain and a board, from a board a domain (R33, R184). -/
def parseSubscription (who : Owner) (p : List Byte) : Option (DomainNo × BoardNo) :=
  match who, p with
  | .service, [x, y] =>
    match domainOf x, boardOf y with
    | some d, some b => some (d, b)
    | _, _ => none
  | .board b, [x] => (domainOf x).map fun d => (d, b)
  | _, _ => none

/-- What REVISE carries: a field of 0 is not carried (R185). -/
structure ReviseParams where
  domain : DomainNo
  period : Nat
  high : Nat
  phase : Option Nat
  gap : Nat
  deriving DecidableEq, Repr

/-- The range of each carried field (R48): the high time and the phase against the period when a period is carried. -/
def reviseInRange (period high : Nat) (phase : Option Nat) : Bool :=
  decide (period = 0 ∨ (2 ≤ period ∧ high < period ∧ ∀ f ∈ phase, f < period))

/-- REVISE: domain, period, high, phase present, phase, gap (R48, R184, R185). -/
def parseRevise (p : List Byte) : Option ReviseParams :=
  match p with
  | [x, p1, p2, h1, h2, present, f1, f2, gap] =>
    match domainOf x with
    | none => none
    | some d =>
      if present = 0x00#8 ∨ present = 0x01#8 then
        let phase := if present = 0x01#8 then some (Bytes.toNat [f1, f2]) else none
        if reviseInRange (Bytes.toNat [p1, p2]) (Bytes.toNat [h1, h2]) phase then
          some ⟨d, Bytes.toNat [p1, p2], Bytes.toNat [h1, h2], phase, gap.toNat⟩
        else none
      else none
  | _ => none

/-- SET STOP: domain, stop action, stop count (R42). -/
def parseSetStop (p : List Byte) : Option (DomainNo × Option StopSetting) :=
  match p with
  | [x, action, c1, c2, c3, c4] =>
    match domainOf x, stopOf action (Bytes.toNat [c1, c2, c3, c4]) with
    | some d, some stop => some (d, stop)
    | _, _ => none
  | _ => none

/-- RUN's limit (R93 step 1, R185). -/
def parseRun (p : List Byte) : Option Budget :=
  match p with
  | [form, v1, v2, v3, v4, v5, v6] =>
    let value := Bytes.toNat [v1, v2, v3, v4, v5, v6]
    if form = 0x00#8 then (if value = 0 then some .unlimited else none)
    else if form = 0x01#8 then (if 1 ≤ value ∧ value < 2 ^ 32 then some (.sets value) else none)
    else if form = 0x02#8 then some (.untilTime value)
    else none
  | _ => none

/-- ADMIT, EXPEL, RETRAIN, READ BOARD: a board number. -/
def parseBoard (p : List Byte) : Option BoardNo :=
  match p with
  | [x] => boardOf x
  | _ => none

/-- What SET BOARD carries (R130). -/
structure BoardLimits where
  board : BoardNo
  window : Nat
  holdLimit : Nat
  ackBase : Nat
  deriving DecidableEq, Repr

/-- SET BOARD: board, W, hold limit, ack base (R130 step 1). -/
def parseSetBoard (p : List Byte) : Option BoardLimits :=
  match p with
  | [x, w, h1, h2, a1, a2] =>
    match boardOf x with
    | none => none
    | some b =>
      if 1 ≤ w.toNat ∧ w.toNat ≤ 8 ∧ 1 ≤ Bytes.toNat [a1, a2] then
        some ⟨b, w.toNat, Bytes.toNat [h1, h2], Bytes.toNat [a1, a2]⟩
      else none
  | _ => none

/-- SET CABINET: K is 4, 8 or 16 and E is 1 to 31 (R176). -/
def parseSetCabinet (p : List Byte) : Option (Nat × Nat) :=
  match p with
  | [k, e] =>
    if (k.toNat = 4 ∨ k.toNat = 8 ∨ k.toNat = 16) ∧ 1 ≤ e.toNat ∧ e.toNat ≤ 31 then some (k.toNat, e.toNat) else none
  | _ => none

/-- SET MASK: a level, 0 to 7 (R179). -/
def parseSetMask (p : List Byte) : Option Nat :=
  match p with
  | [x] => if x.toNat ≤ 7 then some x.toNat else none
  | _ => none

/-- LIST FROM: a starting number, 0 to 47 (R32). -/
def parseListFrom (p : List Byte) : Option Nat :=
  match p with
  | [x] => if x.toNat < 48 then some x.toNat else none
  | _ => none

/-- A HOLD or RELEASE cause, 0 to 3 (R150, R152). -/
def causeOf (x : Byte) : Option (Fin 4) := if h : x.toNat < 4 then some ⟨x.toNat, h⟩ else none

end Sys2Proof.Machine
end

