-- ==== Sys2Proof/Machine/Arbiter.lean ====
section
/-! DEFINITION. The Request Arbiter (R161 to R169): the slots, the choice of the next grant, and the one operation that
grants a request, hands it to the Domain Table and returns its reply and notices (R23, R24, R165). -/

namespace Sys2Proof.Machine

/-- Where a granted request came from. -/
inductive Requester where
  | service
  | board (b : BoardNo) (t : Tag)
  deriving DecidableEq, Repr

/-- Whose rights the request is taken with (R20, R22). -/
def Requester.owner : Requester → Owner
  | .service => .service
  | .board b _ => .board b

/-- The arbiter's next grant: the request, and what the pointer and the escalation counter become. -/
structure Grant where
  requester : Requester
  code : Byte
  params : List Byte
  pointer : BoardNo
  escalation : Nat
  deriving DecidableEq, Repr

/-- The slot of a board that is granted at its turn: slot 0 first (R167). -/
def Board.waitingTag (e : Board) : Option Tag :=
  match e.slot 0, e.slot 1 with
  | .waiting _ _, _ => some 0
  | _, .waiting _ _ => some 1
  | _, _ => none

/-- The first board with a WAITING slot, searched from the pointer and wrapping from 63 to 0 (R167). -/
def State.nextBoard (s : State) : Option BoardNo :=
  (allBoards.map fun i => s.pointer + i).find? fun b => (s.board b).waitingTag.isSome

/-- A grant to a board (R166, R167): the counter becomes 0 and the pointer the board's number plus one. -/
def State.boardGrant (s : State) (b : BoardNo) : Option Grant :=
  match (s.board b).waitingTag with
  | none => none
  | some t =>
    match (s.board b).slot t with
    | .waiting kind params => some ⟨.board b t, kind.setWidth 8, params, b + 1, 0⟩
    | .empty => none
    | .replied => none

/-- The next grant (R166, R167): the service goes first, but for a board after E service grants in a row while a board
request waits. -/
def State.nextGrant (s : State) : Option Grant :=
  match s.slot, s.nextBoard with
  | .waiting code params, none => some ⟨.service, code, params, s.pointer, 0⟩
  | .waiting code params, some b =>
    if s.escalation < s.escalationE then some ⟨.service, code, params, s.pointer, s.escalation + 1⟩
    else s.boardGrant b
  | .empty, some b => s.boardGrant b
  | .done _ _ _, some b => s.boardGrant b
  | .empty, none => none
  | .done _ _ _, none => none

/-- What the Domain Table answers when it takes a request: the state, one reply, and the notices originated with the
boards they are for (R23, R24). -/
structure Taken where
  state : State
  status : Status
  data : List Byte
  notices : List (Notice × BoardSet)

/-- A refused request changes no field and originates no notice (R23). -/
def State.refuse (s : State) (status : Status) : Taken := ⟨s, status, [], []⟩

/-- The reply goes back along the path of the request (R24): to the service slot, which becomes DONE, or to the board's
link with its tag, whose slot becomes REPLIED (R165). -/
def State.putReply (s : State) (g : Grant) (status : Status) (data : List Byte) : State :=
  match g.requester with
  | .service => { s with slot := .done g.code status data }
  | .board b t =>
    s.modifyBoard b fun e => (e.setSlot t .replied).enqueue [.reply t (g.code.setWidth 7) status data]

/-- The arbiter moves on to its next grant (R166, R167). -/
def State.moveArbiter (s : State) (g : Grant) : State := { s with pointer := g.pointer, escalation := g.escalation }

/-- One grant: the arbiter's own state moves, the Domain Table takes the request whole, the reply is produced, and then
the notices of the request are queued (R24, R165). -/
def State.grant (s : State) (g : Grant) (body : Owner → List Byte → State → Taken) : State :=
  let t := body g.requester.owner g.params (s.moveArbiter g)
  (t.state.putReply g t.status t.data).queueNotices t.notices

/-- The grant of a request of kind `k`: the arbiter's next grant, if it is one of that kind (log 8, log 9). -/
def State.grantOf (s : State) (k : RecordKind) (body : Owner → List Byte → State → Taken) : Result :=
  .next (
    match s.nextGrant with
    | some g => if RecordKind.ofCode g.code = some k then s.grant g body else s
    | none => s)

/-- REQUEST (R121, R162): from a LINKED board it enters its EMPTY slot, or is answered SLOT_BUSY. In any other link state
it is not taken. One longer than R182 allows fails the form check of R120 and is a malformed frame (log 16). -/
def execRequest (b : BoardNo) (tag : Tag) (kind : BitVec 7) (params : List Byte) (s : State) : Result :=
  .next (
    if requestLengthOk params then
      if (s.board b).isLinked then
        match (s.board b).slot tag with
        | .empty => s.modifyBoard b fun e => e.setSlot tag (.waiting kind params)
        | .waiting _ _ => s.enqueue b (.reply tag kind .slotBusy [])
        | .replied => s.enqueue b (.reply tag kind .slotBusy [])
      else s
    else s.badReception b .badFrame)

/-- UNKNOWN_REQUEST_KIND (R165): the granted request's kind is none of the Domain Table's; it is answered BAD_PARAM. -/
def execUnknownRequestKind (s : State) : Result :=
  .next (
    match s.nextGrant with
    | some g => if RecordKind.ofCode g.code = none then s.grant g (fun _ _ a => a.refuse .badParam) else s
    | none => s)

end Sys2Proof.Machine
end

