-- ==== Sys2Proof/Machine/ServicePort.lean ====
section
/-! DEFINITION. The Service Port: frames and their status byte, the service slot, the cabinet and attention commands
(R170 to R176, R179, R180). -/

namespace Sys2Proof.Machine

/-- The status byte fixed when SCS_N is asserted (R172); RESET_N asserted answers as initialisation does (log 12). -/
def State.portStatus (s : State) : PortStatus :=
  match s.phase with
  | .ready =>
    match s.slot with
    | .waiting _ _ => .busy
    | .empty => .ready
    | .done _ _ _ => .ready
  | .resetHeld => .notReady
  | .initialising _ => .notReady

/-- The status of the frame that ends now: the one fixed at SCS_N's assertion, and for a command given without that
event the one of this instant (log 10). -/
def State.frameStatus (s : State) : PortStatus := s.frame.getD s.portStatus

/-- SDO as the control processor sees the pin (R170): while SCS_N is asserted the CT64 drives it, with the bytes
recorded of the frame, and while SCS_N is negated it is at high impedance, which is none. SCS_N is asserted exactly while
a frame is open. -/
def State.sdoPin (s : State) : Option (List Byte) := s.frame.map fun _ => s.sdo

/-- The bits of SDO in the order in which they are shifted out, most-significant bit of each byte first (R170). -/
def State.sdoBits (s : State) : Option (List Bool) := s.sdoPin.map Bytes.bits

/-- The frame ends: SCS_N is negated, SDO goes to high impedance (R170), and the record holds the status byte and the
bytes shifted out after it (log 14). -/
def State.endFrame (s : State) (out : List Byte) : State :=
  { s with frame := none, sdo := s.frameStatus.byte :: out }

/-- The frame of a command with `n` payload bytes: filler 00h on SDO (R172). -/
def State.endFiller (s : State) (n : Nat) : State := s.endFrame (List.replicate n 0x00#8)

/-- A reply placed in the service slot, which becomes DONE; an unread reply is discarded (R173). -/
def State.putDone (s : State) (code : Byte) (status : Status) (data : List Byte) : State :=
  { s with slot := .done code status data }

/-- What a block answers to a command taken at once. -/
structure Answer where
  state : State
  status : Status
  data : List Byte

/-- A command refused changes nothing but the slot. -/
def State.answer (s : State) (status : Status) : Answer := ⟨s, status, []⟩

/-- A command taken at once (R171, R175): a frame that is not READY is not taken; a payload of the wrong length is
answered BAD_PARAM; otherwise the block takes it and its reply goes to the slot. -/
def State.command (s : State) (code : Byte) (length : Nat) (payload : List Byte) (body : List Byte → State → Answer) :
    State :=
  let s' := s.endFiller payload.length
  if s.frameStatus = .ready then
    if payload.length = length then
      (body payload s').state.putDone code (body payload s').status (body payload s').data
    else s'.putDone code .badParam []
  else s'

/-- SCS_N_ASSERTED (R172): the frame's status byte is fixed from the state at this instant. -/
def execScsNAsserted (s : State) : Result :=
  .next { s with frame := some s.portStatus, sdo := [s.portStatus.byte] }

/-- The frame of a record command (R164, R171, R173): taken with the right length it waits in the service slot. -/
def State.recordFrame (s : State) (k : RecordKind) (code : Byte) (payload : List Byte) : State :=
  let s' := s.endFiller payload.length
  if s.frameStatus = .ready then
    if payload.length = k.serviceLength then { s' with slot := .waiting code payload }
    else s'.putDone code .badParam []
  else s'

/-- The frame of an unknown command code (R171). -/
def State.unknownFrame (s : State) (code : Byte) (payload : List Byte) : State :=
  let s' := s.endFiller payload.length
  if s.frameStatus = .ready then s'.putDone code .badParam [] else s'

/-- A frame of fewer than eight clocks (R171): it has no command byte, is not taken and changes nothing. SCS_N is negated
all the same, and SDO goes to high impedance (R170). -/
def State.shortFrame (s : State) : State := s.endFrame []

/-- The first `n` bytes of an output followed by 00h filler (R186). -/
def clockedOut (n : Nat) (l : List Byte) : List Byte := (l ++ List.replicate n 0x00#8).take n

/-- READ REPLY (R174, R186): the slot's snapshot is shifted out in the same frame while the processor clocks `clocked`
bytes, and the slot becomes EMPTY however many it clocks. -/
def execReadReply (clocked : Nat) (s : State) : Result :=
  .next (
    if s.frameStatus = .ready then { s.endFrame (clockedOut clocked s.slot.bytes) with slot := .empty }
    else s.endFiller clocked)

/-- SET CABINET (R176). -/
def answerSetCabinet (payload : List Byte) (s : State) : Answer :=
  match parseSetCabinet payload with
  | none => s.answer .badParam
  | some (k, e) => ({ s with filterK := k, escalationE := e }).answer .ok

def execSetCabinet (payload : List Byte) (s : State) : Result :=
  .next (s.command Codes.setCabinet 2 payload answerSetCabinet)

/-- IDENTIFY (R176). -/
def answerIdentify (_payload : List Byte) (s : State) : Answer := ⟨s, .ok, Config.identity⟩

def execIdentify (payload : List Byte) (s : State) : Result :=
  .next (s.command Codes.identify 0 payload answerIdentify)

/-- READ EVENTS (R180): the snapshot, and exactly what it holds is cleared. -/
def answerReadEvents (_payload : List Byte) (s : State) : Answer :=
  ⟨{ s with events := Events.none }, .ok, s.events.bytes⟩

def execReadEvents (payload : List Byte) (s : State) : Result :=
  .next (s.command Codes.readEvents 0 payload answerReadEvents)

/-- SET MASK (R179). -/
def answerSetMask (payload : List Byte) (s : State) : Answer :=
  match parseSetMask payload with
  | none => s.answer .badParam
  | some m => ({ s with mask := m }).answer .ok

def execSetMask (payload : List Byte) (s : State) : Result :=
  .next (s.command Codes.setMask 1 payload answerSetMask)

end Sys2Proof.Machine
end

