-- ==== Sys2Proof/Machine/BoardCommands.lean ====
section
/-! DEFINITION. The board commands (R126 to R131): ADMIT, EXPEL, RETRAIN, SET BOARD, READ BOARD. -/

namespace Sys2Proof.Machine

/-- ADMIT and EXPEL are taken in STOPPED or HALTED (R127, R128). -/
def State.standsStill (s : State) : Bool := decide (s.runState = .stopped) || decide (s.runState = .halted)

/-- ADMIT, its checks in R127's order. -/
def answerAdmit (payload : List Byte) (s : State) : Answer :=
  match parseBoard payload with
  | none => s.answer .badParam
  | some b =>
    if s.standsStill = false then s.answer .wrongState
    else if (s.board b).member then s.answer .already
    else if (s.board b).isLinked = false then s.answer .notReady
    else (s.modifyBoard b fun e => { e with member := true }).answer .ok

def execAdmitBoard (payload : List Byte) (s : State) : Result :=
  .next (s.command Codes.admitBoard 1 payload answerAdmit)

/-- The board entry of an expelled board (R128). -/
def Board.expelled (e : Board) : Board :=
  { e with outstanding := 0, ackTimer := none, held := 0, holdTimer := none, timedOut := 0, member := false }

/-- The expelled board leaves every subscriber set, and its records pass to SERVICE (R21). -/
def Domain.withoutBoard (r : Domain) (b : BoardNo) : Domain :=
  { r with
    subscribers := Bits.remove r.subscribers b
    owner := if r.owner = .board b then .service else r.owner }

/-- EXPEL (R21, R128). -/
def answerExpel (payload : List Byte) (s : State) : Answer :=
  match parseBoard payload with
  | none => s.answer .badParam
  | some b =>
    if s.standsStill = false then s.answer .wrongState
    else if (s.board b).member = false then s.answer .already
    else ((s.modifyBoard b Board.expelled).mapDomains fun _ r => r.withoutBoard b).answer .ok

def execExpel (payload : List Byte) (s : State) : Result := .next (s.command Codes.expel 1 payload answerExpel)

/-- RETRAIN of a board in FAULT (R126). -/
def State.retrain (s : State) (b : BoardNo) : State :=
  let s' := s.modifyBoard b fun e => { e with timedOut := 0, txQueue := [], link := .down }
  if (s.board b).signal then s'.startTraining b else s'

def answerRetrain (payload : List Byte) (s : State) : Answer :=
  match parseBoard payload with
  | none => s.answer .badParam
  | some b =>
    match (s.board b).link with
    | .fault => (s.retrain b).answer .ok
    | .down => s.answer .wrongState
    | .training _ => s.answer .wrongState
    | .linked => s.answer .wrongState

def execRetrain (payload : List Byte) (s : State) : Result := .next (s.command Codes.retrain 1 payload answerRetrain)

/-- SET BOARD, its checks in R130's order. -/
def answerSetBoard (payload : List Byte) (s : State) : Answer :=
  match parseSetBoard payload with
  | none => s.answer .badParam
  | some q =>
    if s.runState = .running then s.answer .wrongState
    else if (s.board q.board).outstanding ≠ 0 then s.answer .wrongState
    else
      (s.modifyBoard q.board fun e =>
        { e with window := q.window, holdLimit := q.holdLimit, ackBase := q.ackBase }).answer .ok

def execSetBoard (payload : List Byte) (s : State) : Result :=
  .next (s.command Codes.setBoard 6 payload answerSetBoard)

/-- READ BOARD (R131): the snapshot, and then the longest ack wait is set to 0. -/
def answerReadBoard (payload : List Byte) (s : State) : Answer :=
  match parseBoard payload with
  | none => s.answer .badParam
  | some b => ⟨s.modifyBoard b fun e => { e with longestAckWait := 0 }, .ok, (s.board b).record⟩

def execReadBoard (payload : List Byte) (s : State) : Result :=
  .next (s.command Codes.readBoard 1 payload answerReadBoard)

end Sys2Proof.Machine
end

