-- ==== Sys2Proof/Machine/Delivery.lean ====
section
/-! DEFINITION. The Delivery Unit: copies, parts, outstanding counts, acknowledgements and the ack timer (R132 to R148),
with the meanings of ACK, ACK_TIMEOUT and REPLY_SENT. -/

namespace Sys2Proof.Machine

/-- A copy cut into consecutive pieces of at most `c` entries (R136); the first argument bounds the recursion. -/
def cutInto (c : Nat) : Nat → List (DomainNo × Level) → List (List (DomainNo × Level))
  | 0, l => [l]
  | fuel + 1, l => if l.length ≤ c then [l] else l.take c :: cutInto c fuel (l.drop c)

/-- The parts numbered from `i`, the last one flagged (R137). -/
def numberParts (kind : SetKind) (seq16 : BitVec 16) (time : Nat) : Nat → List (List (DomainNo × Level)) → List Frame
  | _, [] => []
  | i, l :: ls => .setPart ⟨kind, seq16, time, i, ls.isEmpty, l⟩ :: numberParts kind seq16 time (i + 1) ls

/-- Entries per part on a board's link (R136). A member's capacity is always known (R132); log 15. -/
def Board.partSize (e : Board) : Nat := (e.capacity.map Capacity.entries).getD 48

/-- The frames of one copy (R135 to R137). -/
def copyFrames (kind : SetKind) (seq : BitVec 32) (time : Nat) (size : Nat) (l : List (DomainNo × Level)) : List Frame :=
  numberParts kind (seq.setWidth 16) time 0 (cutInto size l.length l)

/-- The ack timer started or restarted with the allowance in force (R144). -/
def Board.startAckTimer (e : Board) (clock : Nat) : Board :=
  { e with ackTimer := some ⟨clock, clock + e.allowance⟩ }

/-- A member is sent a copy (R138, R144). -/
def Board.receiveCopy (e : Board) (clock : Nat) (frames : List Frame) : Board :=
  let e' := if e.outstanding = 0 then e.startAckTimer clock else e
  { e' with outstanding := e.outstanding + 1, txQueue := e.txQueue ++ frames }

/-- One copy for each member, filtered for it (R132). The set carries the current counter value and `time`. -/
def State.deliver (s : State) (kind : SetKind) (time : Nat) (entriesFor : BoardNo → List (DomainNo × Level)) : State :=
  s.mapBoards fun b e =>
    if e.member then e.receiveCopy s.clock (copyFrames kind s.seq time e.partSize (entriesFor b)) else e

/-- The sequence number of a board's oldest outstanding set (R138). -/
def State.oldest (s : State) (b : BoardNo) : BitVec 32 := s.seq - BitVec.ofNat 32 (s.board b).outstanding + 1

/-- The wait of the set that an ACK taken now acknowledges, in whole microseconds, saturating (R142). -/
def Board.ackWait (e : Board) (clock : Nat) : Nat :=
  match e.ackTimer with
  | some t => min 65535 ((clock - t.started) / Config.unitsPerMicrosecond)
  | none => 0

/-- The board entry after an ACK is taken (R140). -/
def Board.takeAck (e : Board) (clock : Nat) : Board :=
  let e' := { e with
    outstanding := e.outstanding - 1
    ackedSets := e.ackedSets + 1
    longestAckWait := max e.longestAckWait (e.ackWait clock)
    ackTimer := none }
  if e.outstanding = 1 then e' else e'.startAckTimer clock

/-- ACK (R140, R141): taken when it names the oldest outstanding set of a LINKED member, and otherwise a LINKED board is
faulted with ACK_ORDER. Outside LINKED it is not taken. -/
def execAck (b : BoardNo) (seq16 : BitVec 16) (s : State) : Result :=
  .next (
    match (s.board b).link with
    | .linked =>
      if (s.board b).member = true ∧ 0 < (s.board b).outstanding ∧ seq16 = (s.oldest b).setWidth 16 then
        (s.modifyBoard b fun e => e.takeAck s.clock).completeDraining
      else s.faultLinked b .ackOrder
    | .down => s
    | .training _ => s
    | .fault => s)

/-- ACK_TIMEOUT (R145): a running ack timer expires. -/
def execAckTimeout (b : BoardNo) (s : State) : Result :=
  .next (
    match (s.board b).ackTimer with
    | some t => (s.passTo t.deadline).faultBoard b .ackTimeout
    | none => s)

/-- REPLY_SENT (R163): the last byte of the reply in slot `t` has been sent, and the slot becomes EMPTY. -/
def execReplySent (b : BoardNo) (t : Tag) (s : State) : Result :=
  .next (
    match (s.board b).slot t with
    | .replied =>
      if (s.board b).replyQueued t then s.modifyBoard b fun e => e.sendThrough t e.txQueue.length else s
    | .empty => s
    | .waiting _ _ => s)

end Sys2Proof.Machine
end

