-- ==== Sys2Proof/Machine/Holds.lean ====
section
/-! DEFINITION. The Hold Unit: HOLD, RELEASE, HOLD_TIMEOUT and board STOP frames (R149 to R160). -/

namespace Sys2Proof.Machine

/-- The hold timer armed from the full limit, when the limit is not 0 (R154). -/
def Board.armHoldTimer (e : Board) (clock : Nat) : Board :=
  if e.holdLimit = 0 then e
  else { e with holdTimer := some (clock + Config.unitsPerMillisecond * e.holdLimit) }

/-- Whether the Hold Unit is given frames of a link: in LINKED and FAULT (R114, R121). -/
def Board.reachesHoldUnit (e : Board) : Bool :=
  match e.link with
  | .linked => true
  | .fault => true
  | .down => false
  | .training _ => false

/-- The status of a HOLD (R150), its checks in order. -/
def Board.holdStatus (e : Board) (cause : Byte) : Status :=
  match causeOf cause with
  | none => .badParam
  | some c =>
    if e.isLinked = false then .faulted
    else if e.member = false then .notMember
    else if Bits.has e.held c then .already
    else .taken

/-- The board entry after a HOLD of `cause` is taken (R150). -/
def Board.takeHold (e : Board) (running : Bool) (clock : Nat) (cause : Byte) : Board :=
  let e' := { e with held := Bits.add e.held cause.toNat, holdsTaken := e.holdsTaken + 1 }
  if e.held = 0 ∧ running = true then e'.armHoldTimer clock else e'

/-- HOLD (R150): a frame that reaches the Hold Unit is answered with its status and the last sequence number. -/
def execHold (b : BoardNo) (cause : Byte) (s : State) : Result :=
  .next (
    if (s.board b).reachesHoldUnit then
      let status := (s.board b).holdStatus cause
      let s' := if status = .taken then
        s.modifyBoard b fun e => e.takeHold (decide (s.runState = .running)) s.clock cause else s
      s'.enqueue b (.holdAnswer cause status s.seq)
    else s)

/-- The status of a RELEASE (R152), its checks in order. -/
def Board.releaseStatus (e : Board) (cause : Byte) : Status :=
  match causeOf cause with
  | none => .badParam
  | some c =>
    if e.isLinked = false then (if Bits.has e.timedOut c then .tooLate else .faulted)
    else if e.member = false then .notMember
    else if Bits.has e.held c then .released
    else .notHeld

/-- The board entry after a RELEASE of `cause` is taken (R152). -/
def Board.takeRelease (e : Board) (cause : Byte) : Board :=
  let e' := { e with held := Bits.remove e.held cause.toNat }
  if e'.held = 0 then { e' with holdTimer := none } else e'

/-- RELEASE (R152). -/
def execRelease (b : BoardNo) (cause : Byte) (s : State) : Result :=
  .next (
    if (s.board b).reachesHoldUnit then
      let status := (s.board b).releaseStatus cause
      let s' := if status = .released then s.modifyBoard b fun e => e.takeRelease cause else s
      s'.enqueue b (.holdAnswer cause status s.seq)
    else s)

/-- HOLD_TIMEOUT (R155): an armed hold timer expires; the held causes become the timed-out set, and the board is
faulted. -/
def execHoldTimeout (b : BoardNo) (s : State) : Result :=
  .next (
    match (s.board b).holdTimer with
    | some t =>
      if (s.board b).isLinked then
        ((s.passTo t).modifyBoard b fun e => { e with timedOut := e.held }).faultLinked b .holdTimeout
      else s
    | none => s)

/-- The status of a board's STOP frame (R159), its checks in order. -/
def Board.stopStatus (e : Board) (running : Bool) : Status :=
  if e.isLinked = false then .faulted
  else if e.member = false then .notMember
  else if running = false then .notRunning
  else .stopping

/-- STOP_FRAME (R159): taken, it drains the run with cause TRIGGER; every STOP is answered. -/
def execStopFrame (b : BoardNo) (code : Byte) (s : State) : Result :=
  .next (
    if (s.board b).reachesHoldUnit then
      let status := (s.board b).stopStatus (decide (s.runState = .running))
      let s' := if status = .stopping then s.enterDraining .trigger (some b) none (some code) else s
      s'.enqueue b (.stopAnswer code status s.seq)
    else s)

end Sys2Proof.Machine
end

