-- ==== Sys2Proof/Machine/Links.lean ====
section
/-! DEFINITION. The meanings of the link line, training and frame-check commands (R115 to R121). -/

namespace Sys2Proof.Machine

/-- LINE_ACTIVITY_DETECTED (R115): there is signal; a DOWN link in service enters TRAINING. In every other state of
the link line activity is no event. -/
def execLineActivityDetected (b : BoardNo) (s : State) : Result :=
  let s' := s.modifyBoard b fun e => { e with signal := true }
  .next (
    match (s.board b).link with
    | .down => if s.isReady then s'.startTraining b else s'
    | .training _ => s'
    | .linked => s'
    | .fault => s')

/-- LOSS_OF_SIGNAL (R115, R122, R124): TRAINING and LINKED go DOWN; FAULT stays, and the answers still queued on it are
discarded. -/
def execLossOfSignal (b : BoardNo) (s : State) : Result :=
  let s' := s.modifyBoard b fun e => { e with signal := false }
  .next (
    match (s.board b).link with
    | .down => s'
    | .training _ => s'.modifyBoard b fun e => { e with link := .down }
    | .linked => s'.dropLinked b
    | .fault => s'.modifyBoard b fun e => { e with txQueue := [] })

/-- PROBE_ANSWER_TIMEOUT (R116): the 100 us wait of the current probe has ended without an answer. -/
def execProbeAnswerTimeout (b : BoardNo) (s : State) : Result :=
  .next (
    match (s.board b).link with
    | .training t => (s.passTo t.deadline).probeMissing b t
    | .down => s
    | .linked => s
    | .fault => s)

/-- ECHO (R116 to R119): in TRAINING it is received `arrival` units after the PROBE it finds waiting, or now when that
instant is past (log 20). Elsewhere it is not taken (R114, R121). -/
def execEcho (b : BoardNo) (number capacityCode : Byte) (arrival : Nat) (s : State) : Result :=
  .next (
    match (s.board b).link with
    | .training t => s.receiveEcho b number capacityCode (max s.clock (t.sent + arrival))
    | .down => s
    | .linked => s
    | .fault => s)

/-- FRAME_CHECK (R120): a frame that fails its CRC. -/
def execFrameCheck (b : BoardNo) (s : State) : Result := .next (s.badReception b .frameCheck)

/-- BAD_FRAME (R120): a frame that passes its CRC and fails the form check. -/
def execBadFrame (b : BoardNo) (s : State) : Result := .next (s.badReception b .badFrame)

/-- ERROR (R121): a LINKED board that reports an error is faulted. -/
def execError (b : BoardNo) (s : State) : Result := .next (s.faultBoard b .boardError)

end Sys2Proof.Machine
end

