-- ==== Sys2Proof/Machine/Records.lean ====
section
/-! DEFINITION. The record requests, as the Domain Table takes them at their grant (R19 to R62): one body and one meaning
each. -/

namespace Sys2Proof.Machine

/-- Steps 2 and 3 of R23 for a request that its owner or the service may make (R22): the record is not FREE, and the
requester has access. -/
def State.withOwned (s : State) (who : Owner) (d : DomainNo) (k : Domain → Taken) : Taken :=
  match s.domain d with
  | none => s.refuse .noSuch
  | some r => if who = .service ∨ who = r.owner then k r else s.refuse .denied

/-- Step 2 of R23 for a request open to every requester. -/
def State.withRecord (s : State) (d : DomainNo) (k : Domain → Taken) : Taken :=
  match s.domain d with
  | none => s.refuse .noSuch
  | some r => k r

/-! CREATE (R25 to R27) -/

/-- The lowest-numbered FREE record. -/
def State.lowestFree (s : State) : Option DomainNo := allDomains.find? fun d => (s.domain d).isNone

/-- The record that holds a label; at most one does (R19, R29). -/
def State.findLabel (s : State) (label : Nat) : Option DomainNo :=
  allDomains.find? fun d =>
    match s.domain d with
    | some r => decide (r.label = label)
    | none => false

/-- A pending PAUSE or RETIRE. -/
def Domain.stopping (r : Domain) : Bool :=
  match r.life with
  | .active (.pause _) => true
  | .active .retire => true
  | _ => false

/-- A gap against a parent's current values and its pending ones (R27 step 7, R48). -/
def gapFitsParent (parent : Domain) (p : Primary) (gap : Nat) : Bool :=
  gapOk p.period p.high gap &&
    match parent.life with
    | .active (.revisePrimary period high) => gapOk period high gap
    | _ => true

/-- Steps 4 to 7 of R27, for a companion: the status of the first check that fails. -/
def State.companionCheck (s : State) (c : Companion) : Option Status :=
  match s.domain c.parent with
  | none => some .noSuch
  | some parent =>
    match parent.source with
    | .companion _ => some .wrongState
    | .primary p =>
      if p.companion ≠ none then some .wrongState
      else if parent.stopping then some .parentIdle
      else if gapFitsParent parent p c.gap = false then some .gap
      else none

/-- A new record (R25, R26). -/
def CreateParams.record (q : CreateParams) (who : Owner) : Domain where
  label := q.label
  owner := who
  source := q.source
  level := match q.source with
    | .primary p => p.park
    | .companion _ => .low
  generation := 0
  count := 0
  stop := q.stop
  life := .defined
  subscribers := 0

/-- The record is allocated; a companion's parent names it from that instant (R26). -/
def State.allocate (s : State) (d : DomainNo) (q : CreateParams) (who : Owner) : State :=
  match q.source with
  | .primary _ => s.setDomain d (some (q.record who))
  | .companion c =>
    (s.modifyDomain c.parent fun r => r.withCompanion (some d)).setDomain d (some (q.record who))

/-- Steps 4 to 7 apply to a companion only (R27). -/
def State.sourceCheck (s : State) : Source → Option Status
  | .primary _ => none
  | .companion c => s.companionCheck c

/-- CREATE, its checks in R27's order. -/
def takeCreate (who : Owner) (params : List Byte) (s : State) : Taken :=
  match parseCreate params with
  | none => s.refuse .badParam
  | some q =>
    match s.lowestFree with
    | none => s.refuse .tableFull
    | some d =>
      if (s.findLabel q.label).isSome then s.refuse .duplicate
      else
        match s.sourceCheck q.source with
        | some status => s.refuse status
        | none => ⟨s.allocate d q who, .ok, [DomainNo.byte d], []⟩

def execCreate (s : State) : Result := s.grantOf .create takeCreate

/-! FIND, LOOKUP, LIST, LIST FROM (R29 to R32) -/

/-- FIND (R29). -/
def takeFind (_who : Owner) (params : List Byte) (s : State) : Taken :=
  match parseLabel params with
  | none => s.refuse .badParam
  | some label =>
    match s.findLabel label with
    | none => s.refuse .notFound
    | some d => ⟨s, .ok, [DomainNo.byte d], []⟩

def execFind (s : State) : Result := s.grantOf .find takeFind

/-- LOOKUP (R30). -/
def takeLookup (who : Owner) (params : List Byte) (s : State) : Taken :=
  match parseDomain params with
  | none => s.refuse .badParam
  | some d => s.withRecord d fun r => ⟨s, .ok, s.snapshot who d r, []⟩

def execLookup (s : State) : Result := s.grantOf .lookup takeLookup

/-- The lowest-numbered non-FREE record at or above a number (R31). -/
def State.nextRecord (s : State) (cursor : Nat) : Option DomainNo :=
  allDomains.find? fun d => decide (cursor ≤ d.val) && (s.domain d).isSome

/-- The walk from a cursor (R31, R32): the record found and the cursor after it, or END and the cursor 0. -/
def State.walk (s : State) (cursor : Nat) : Taken :=
  match s.nextRecord cursor with
  | none => ⟨{ s with listCursor := 0 }, .endOfList, [], []⟩
  | some d =>
    match s.domain d with
    | some r => ⟨{ s with listCursor := d.val + 1 }, .ok, s.snapshot .service d r, []⟩
    | none => s.refuse .noSuch

/-- LIST and LIST FROM from a board: parameters that are not exactly as long as the kind calls for are BAD_PARAM (R162,
R185), and a request of the right length is DENIED (R22, R165; log 13). -/
def State.refuseList (s : State) (params : List Byte) (length : Nat) : Taken :=
  if params.length = length then s.refuse .denied else s.refuse .badParam

/-- LIST (R31). -/
def takeList (who : Owner) (params : List Byte) (s : State) : Taken :=
  match who with
  | .service => s.walk s.listCursor
  | .board _ => s.refuseList params 0

def execList (s : State) : Result := s.grantOf .list takeList

/-- LIST FROM (R32): the cursor is set, then as LIST. -/
def takeListFrom (who : Owner) (params : List Byte) (s : State) : Taken :=
  match who with
  | .board _ => s.refuseList params 1
  | .service =>
    match parseListFrom params with
    | none => s.refuse .badParam
    | some n => s.walk n

def execListFrom (s : State) : Result := s.grantOf .listFrom takeListFrom

/-! ATTACH and DETACH (R33 to R35) -/

/-- The reply data of ATTACH and DETACH: the level and the last sequence number (R33, R34, R186). -/
def State.subscriptionData (s : State) (r : Domain) : List Byte := [r.level.byte] ++ Bytes.be 4 s.seq.toNat

/-- The boards that hold only `b`. -/
def onlyBoard (b : BoardNo) : BoardSet := Bits.add 0 b

/-- A notice for the board alone when the service acts for it, none when it acts for itself (R35). -/
def subscriptionNotice (who : Owner) (b : BoardNo) (n : Notice) : List (Notice × BoardSet) :=
  match who with
  | .service => [(n, onlyBoard b)]
  | .board _ => []

/-- ATTACH (R33, R35). -/
def takeAttach (who : Owner) (params : List Byte) (s : State) : Taken :=
  match parseSubscription who params with
  | none => s.refuse .badParam
  | some (d, b) =>
    s.withRecord d fun r =>
      if Bits.has r.subscribers b then s.refuse .already
      else
        ⟨s.setDomain d (some { r with subscribers := Bits.add r.subscribers b }), .ok, s.subscriptionData r,
          subscriptionNotice who b (.attached d r.level s.seq)⟩

def execAttach (s : State) : Result := s.grantOf .attach takeAttach

/-- DETACH (R34, R35). -/
def takeDetach (who : Owner) (params : List Byte) (s : State) : Taken :=
  match parseSubscription who params with
  | none => s.refuse .badParam
  | some (d, b) =>
    s.withRecord d fun r =>
      if Bits.has r.subscribers b then
        ⟨s.setDomain d (some { r with subscribers := Bits.remove r.subscribers b }), .ok, s.subscriptionData r,
          subscriptionNotice who b (.detached d)⟩
      else s.refuse .already

def execDetach (s : State) : Result := s.grantOf .detach takeDetach

/-! START and RESUME (R37, R38, R54, R55) -/

/-- A companion's parent is not ACTIVE, or has a pending PAUSE or RETIRE (R37, R47). -/
def State.parentIdle (s : State) (r : Domain) : Bool :=
  match r.source with
  | .primary _ => false
  | .companion c =>
    match s.domain c.parent with
    | some parent => !parent.isActive || parent.stopping
    | none => true

/-- The record becomes ACTIVE with its first edge in the calendar (R37, R54, R69); `r` is the record it becomes. -/
def State.activate (s : State) (d : DomainNo) (r : Domain) (edge : Entry) : State :=
  (s.setDomain d (some { r with life := .active .nothing })).insertEntry edge

/-- START (R37, R38). -/
def takeStart (who : Owner) (params : List Byte) (s : State) : Taken :=
  match parseDomain params with
  | none => s.refuse .badParam
  | some d =>
    s.withOwned who d fun r =>
      match r.life with
      | .active _ => s.refuse .wrongState
      | .paused _ => s.refuse .wrongState
      | .defined =>
        if s.parentIdle r then s.refuse .parentIdle
        else
          ⟨s.activate d { r with count := 0 } (s.firstEdge d r), .ok, Bytes.be 8 (s.firstEdge d r).time,
            [(.started d (s.firstEdge d r).time, r.subscribers)]⟩

def execStart (s : State) : Result := s.grantOf .start takeStart

/-- RESUME (R54, R55). -/
def takeResume (who : Owner) (params : List Byte) (s : State) : Taken :=
  match parseDomain params with
  | none => s.refuse .badParam
  | some d =>
    s.withOwned who d fun r =>
      match r.life with
      | .active _ => s.refuse .wrongState
      | .defined => s.refuse .wrongState
      | .paused _ =>
        if s.parentIdle r then s.refuse .parentIdle
        else
          ⟨s.activate d r (s.firstEdge d r), .ok, Bytes.be 8 (s.firstEdge d r).time,
            [(.resumed d (s.firstEdge d r).time, r.subscribers)]⟩

def execResume (s : State) : Result := s.grantOf .resume takeResume

/-! REVISE (R46 to R50) -/

/-- The record with its pending-change slot replaced. -/
def State.setPending (s : State) (d : DomainNo) (r : Domain) (p : Pending) : State :=
  s.setDomain d (some { r with life := .active p })

/-- The gap constraint of a revised primary against its companion's gap and pending gap (R48). -/
def State.gapFitsCompanion (s : State) (companion : Option DomainNo) (period high : Nat) : Bool :=
  match companion with
  | none => true
  | some c =>
    match s.domain c with
    | none => true
    | some r =>
      gapOk period high r.gap &&
        match r.life with
        | .active (.reviseCompanion gap) => gapOk period high gap
        | _ => true

/-- Step 4 of R47 for REVISE: the fields fit the kind, and no phase for an ACTIVE record (R48). -/
def ReviseParams.fits (q : ReviseParams) (r : Domain) : Bool :=
  match r.source with
  | .primary _ =>
    decide (q.gap = 0) && decide (q.period ≠ 0) && decide (q.high ≠ 0) && !(r.isActive && q.phase.isSome)
  | .companion _ => decide (q.period = 0) && decide (q.high = 0) && decide (q.phase = none) && decide (q.gap ≠ 0)

/-- Step 5 of R47 for REVISE: a pending PAUSE or RETIRE is a CONFLICT (R46). Step 6: the gap constraint (R48). -/
def State.reviseGapOk (s : State) (q : ReviseParams) (r : Domain) : Bool :=
  match r.source with
  | .primary p => s.gapFitsCompanion p.companion q.period q.high
  | .companion c =>
    match s.domain c.parent with
    | some parent =>
      match parent.source with
      | .primary p => gapFitsParent parent p q.gap
      | .companion _ => false
    | none => false

/-- The pending change of a REVISE (R50). -/
def ReviseParams.pending (q : ReviseParams) (r : Domain) : Pending :=
  match r.source with
  | .primary _ => .revisePrimary q.period q.high
  | .companion _ => .reviseCompanion q.gap

/-- A revision applied at once to a DEFINED or PAUSED record (R13, R49). -/
def ReviseParams.applied (q : ReviseParams) (r : Domain) : Domain :=
  match r.source with
  | .primary _ => r.revisePrimary q.period q.high (q.phase.getD (r.phase % q.period))
  | .companion _ => r.reviseCompanion q.gap

/-- Whether the slot already holds a REVISE (R46). -/
def Domain.revising (r : Domain) : Bool :=
  match r.life with
  | .active (.revisePrimary _ _) => true
  | .active (.reviseCompanion _) => true
  | _ => false

/-- A REVISE that has passed every check is taken (R49, R50). -/
def State.applyRevise (s : State) (q : ReviseParams) (r : Domain) : Taken :=
  if r.isActive then
    ⟨s.setPending q.domain r (q.pending r), if r.revising then .replaced else .ok, [], []⟩
  else
    let s' := s.setDomain q.domain (some (q.applied r))
    ⟨s', .ok, Bytes.be 2 (q.applied r).generation.toNat,
      [(s'.revisedNotice q.domain (q.applied r), r.subscribers)]⟩

/-- REVISE, its checks in R47's order. -/
def takeRevise (who : Owner) (params : List Byte) (s : State) : Taken :=
  match parseRevise params with
  | none => s.refuse .badParam
  | some q =>
    s.withOwned who q.domain fun r =>
      if q.fits r = false then s.refuse .badParam
      else if r.stopping then s.refuse .conflict
      else if s.reviseGapOk q r = false then s.refuse .gap
      else s.applyRevise q r

def execRevise (s : State) : Result := s.grantOf .revise takeRevise

/-! PAUSE, RETIRE, CANCEL (R46, R47, R52, R56 to R58) -/

/-- PAUSE (R46, R47, R52). -/
def takePause (who : Owner) (params : List Byte) (s : State) : Taken :=
  match parseDomain params with
  | none => s.refuse .badParam
  | some d =>
    s.withOwned who d fun r =>
      match r.life with
      | .defined => s.refuse .wrongState
      | .paused _ => s.refuse .already
      | .active p =>
        if s.companionActive r then s.refuse .dependent
        else
          match p with
          | .nothing => ⟨s.setPending d r (.pause .requested), .ok, [], []⟩
          | .revisePrimary _ _ => s.refuse .conflict
          | .reviseCompanion _ => s.refuse .conflict
          | .pause _ => s.refuse .already
          | .retire => s.refuse .conflict

def execPause (s : State) : Result := s.grantOf .pause takePause

/-- RETIRE at once (R56): the record becomes FREE, and RETIRED goes to its subscribers. -/
def State.retireNow (s : State) (d : DomainNo) (r : Domain) : Taken :=
  ⟨s.freeDomain d, .ok, [], [(.retired d, r.subscribers)]⟩

/-- RETIRE (R46, R47, R56, R57). -/
def takeRetire (who : Owner) (params : List Byte) (s : State) : Taken :=
  match parseDomain params with
  | none => s.refuse .badParam
  | some d =>
    s.withOwned who d fun r =>
      if r.companionNo.isSome then s.refuse .dependent
      else
        match r.life with
        | .defined => s.retireNow d r
        | .paused _ => s.retireNow d r
        | .active .nothing => ⟨s.setPending d r .retire, .ok, [], []⟩
        | .active (.revisePrimary _ _) => ⟨s.setPending d r .retire, .upgraded, [], []⟩
        | .active (.reviseCompanion _) => ⟨s.setPending d r .retire, .upgraded, [], []⟩
        | .active (.pause _) => ⟨s.setPending d r .retire, .upgraded, [], []⟩
        | .active .retire => s.refuse .already

def execRetire (s : State) : Result := s.grantOf .retire takeRetire

/-- CANCEL (R46, R47, R58). -/
def takeCancel (who : Owner) (params : List Byte) (s : State) : Taken :=
  match parseDomain params with
  | none => s.refuse .badParam
  | some d =>
    s.withOwned who d fun r =>
      match r.life with
      | .defined => s.refuse .already
      | .paused _ => s.refuse .already
      | .active .nothing => s.refuse .already
      | .active (.revisePrimary _ _) => ⟨s.setPending d r .nothing, .ok, [], []⟩
      | .active (.reviseCompanion _) => ⟨s.setPending d r .nothing, .ok, [], []⟩
      | .active (.pause _) => ⟨s.setPending d r .nothing, .ok, [], []⟩
      | .active .retire => s.refuse .conflict

def execCancel (s : State) : Result := s.grantOf .cancel takeCancel

/-! SET STOP (R42) -/

/-- SET STOP (R42). -/
def takeSetStop (who : Owner) (params : List Byte) (s : State) : Taken :=
  match parseSetStop params with
  | none => s.refuse .badParam
  | some (d, stop) => s.withOwned who d fun r => ⟨s.setDomain d (some { r with stop := stop }), .ok, [], []⟩

def execSetStop (s : State) : Result := s.grantOf .setStop takeSetStop

end Sys2Proof.Machine
end

