-- ==== Sys2Proof/Machine/Reset.lean ====
section
/-! DEFINITION. RESET_N, SOFT RESET, reset initialisation and the HALT_N line (R89, R103, R113, R177, R181). -/

namespace Sys2Proof.Machine

/-- The reset values of every block, less what only power-on sets and what is no block's state: the input levels, the
clock, the queue and the free values (log 11). A SOFT RESET keeps each board's W, hold limit and ack base, K, E and
the mask (R113, R176, R177, R179). -/
def State.softResetValues (s : State) (phase : Phase) : State :=
  { State.reset with
    phase := phase
    clock := s.clock
    haltAsserted := s.haltAsserted
    freeCount := s.freeCount
    pending := s.pending
    filterK := s.filterK
    escalationE := s.escalationE
    mask := s.mask
    boards := Vector.ofFn fun b => { Board.powerOn with
      signal := (s.board b).signal
      window := (s.board b).window
      holdLimit := (s.board b).holdLimit
      ackBase := (s.board b).ackBase } }

/-- The power-on values (R113, R169, R176, R179). -/
def State.powerOnValues (s : State) (phase : Phase) : State :=
  { State.reset with
    phase := phase
    clock := s.clock
    haltAsserted := s.haltAsserted
    freeCount := s.freeCount
    pending := s.pending
    boards := Vector.ofFn fun b => { Board.powerOn with signal := (s.board b).signal } }

/-- POWER_ON_RESET (R113): RESET_N is asserted. A service frame in progress is lost (R172). What the record of SDO shows
of that frame is the model's choice (log 12): it is emptied here, and when the frame ends its status byte is recorded as
NOT_READY, 82h, even where 80h or 81h had been fixed. -/
def execPowerOnReset (s : State) : Result :=
  .next { s.powerOnValues .resetHeld with frame := s.frame.map fun _ => .notReady }

/-- RESET_N_NEGATED (R113): initialisation runs for 50 us from here. -/
def execResetNNegated (s : State) : Result :=
  .next (
    match s.phase with
    | .resetHeld => { s with phase := .initialising (s.clock + Config.initialisation) }
    | .initialising _ => s
    | .ready => s)

/-- A link that finds signal when it begins to watch its receiver enters TRAINING (R115). -/
def State.watchReceivers (s : State) : State :=
  s.mapBoards fun _ e =>
    if e.signal = true ∧ e.link = .down then { e with link := .training (Training.begin s.filterK s.clock) } else e

/-- Initialisation completes (R89, R113, R181): RESET_DONE is raised, HALT_N is sampled, and the links begin to watch
their receivers. -/
def State.completeInitialisation (s : State) : State :=
  let s' := ({ s with phase := .ready }).raise .resetDone
  let s'' := if s'.haltAsserted then s'.takeHaltLine else s'
  s''.watchReceivers

/-- RESET_INITIALISATION_COMPLETE (R89). -/
def execResetInitialisationComplete (s : State) : Result :=
  .next (
    match s.phase with
    | .initialising t => (s.passTo t).completeInitialisation
    | .resetHeld => s
    | .ready => s)

/-- HALT_N_ASSERTED (R103): a change from negated to asserted, taken as an event outside reset and initialisation. -/
def execHaltNAsserted (s : State) : Result :=
  .next (
    if s.haltAsserted then s
    else
      let s' := { s with haltAsserted := true }
      if s.isReady then s'.takeHaltLine else s')

/-- HALT_N_NEGATED (R103): no event; CLEAR sees the level. -/
def execHaltNNegated (s : State) : Result := .next { s with haltAsserted := false }

/-- SOFT RESET (R177): a frame of the right length is taken with status READY or BUSY, and produces no reply. A wrong
length is answered BAD_PARAM as for any command (R171). -/
def execSoftReset (payload : List Byte) (s : State) : Result :=
  .next (
    let s' := s.endFiller payload.length
    if payload = [] then
      if s.frameStatus = .notReady then s'
      else { s'.softResetValues (.initialising (s.clock + Config.initialisation)) with sdo := s'.sdo }
    else if s.frameStatus = .ready then s'.putDone Codes.softReset .badParam []
    else s')

end Sys2Proof.Machine
end

