-- ==== Sys2Proof/Machine/RunCommands.lean ====
section
/-! DEFINITION. The run commands (R93 to R110): RUN, STEP, STOP, CLEAR, REWIND, RESYNC, READ RUN, and the level set. -/

namespace Sys2Proof.Machine

/-- RUN arms the hold timer of every member that holds a cause (R94, R154). -/
def State.armMembers (s : State) : State :=
  s.mapBoards fun _ e => if e.member = true ∧ e.held ≠ 0 then e.armHoldTimer s.clock else e

/-- A RUN that passes every check is taken (R94); with an empty calendar it drains at the same instant. -/
def State.startRun (s : State) (b : Budget) : State :=
  let s' := (({ s with budget := b, runState := .running }).writeRecord .nothing none none none).armMembers
  if s'.calendar = [] then s'.enterDraining .noEdges none none none else s'

/-- Steps 2 to 4 of R93 on a well-formed limit. -/
def State.checkRun (s : State) (b : Budget) : Answer :=
  if s.runState ≠ .stopped then s.answer .wrongState
  else if s.anyMember = false then s.answer .noMembers
  else
    match b with
    | .untilTime l => if s.time < l then (s.startRun b).answer .ok else s.answer .badParam
    | .unlimited => (s.startRun b).answer .ok
    | .sets _ => (s.startRun b).answer .ok

/-- RUN, its checks in R93's order. -/
def answerRun (payload : List Byte) (s : State) : Answer :=
  match parseRun payload with
  | none => s.answer .badParam
  | some b => s.checkRun b

def execRun (payload : List Byte) (s : State) : Result := .next (s.command Codes.run 7 payload answerRun)

/-- STEP is RUN with a budget of SETS 1 (R95). -/
def answerStep (_payload : List Byte) (s : State) : Answer := s.checkRun (.sets 1)

def execStep (payload : List Byte) (s : State) : Result := .next (s.command Codes.step 0 payload answerStep)

/-- STOP (R96). -/
def answerStop (_payload : List Byte) (s : State) : Answer :=
  if s.runState = .running then (s.enterDraining .stopCommand none none none).answer .ok else s.answer .already

def execStop (payload : List Byte) (s : State) : Result := .next (s.command Codes.stop 0 payload answerStop)

/-- What CLEAR requires of a HALTED cabinet (R105). -/
def State.mayClear (s : State) : Bool :=
  !s.haltAsserted && s.everyMember fun e => e.isLinked && decide (e.outstanding = 0)

/-- CLEAR (R105). -/
def answerClear (_payload : List Byte) (s : State) : Answer :=
  if s.runState = .halted then
    if s.mayClear then ({ s with runState := .stopped, furtherFaults := 0 }).answer .ok else s.answer .notReady
  else s.answer .wrongState

def execClear (payload : List Byte) (s : State) : Result := .next (s.command Codes.clear 0 payload answerClear)

/-! The level set (R106, R134) -/

/-- One entry for each non-FREE domain whose subscriber set holds the board, in domain order (R106). -/
def State.levelEntries (s : State) (b : BoardNo) : List (DomainNo × Level) :=
  allDomains.filterMap fun d =>
    match s.domain d with
    | some r => if Bits.has r.subscribers b then some (d, r.level) else none
    | none => none

/-- A level set is issued at the emulation time with the next number (R74, R106). -/
def State.issueLevelSet (s : State) : State :=
  ({ s with seq := s.seq + 1 }).deliver .level s.time s.levelEntries

/-- The checks of REWIND and RESYNC (R107), and the reply with the level set's number. -/
def State.levelSetCommand (s : State) (taken : State) : Answer :=
  if s.runState ≠ .stopped then s.answer .wrongState
  else if s.anyMember = false then s.answer .noMembers
  else ⟨taken, .ok, Bytes.be 4 (s.seq + 1).toNat⟩

/-- RESYNC (R110). -/
def State.resync (s : State) : State := s.issueLevelSet.enterDraining .resync none none none

def answerResync (_payload : List Byte) (s : State) : Answer := s.levelSetCommand s.resync

def execResync (payload : List Byte) (s : State) : Result := .next (s.command Codes.resync 0 payload answerResync)

/-! REWIND (R108) -/

/-- What REWIND's resolution of one record will tell its subscribers (R108 step 6). -/
inductive Resolved where
  | paused (reason : PauseReason)
  | retired
  | revised
  deriving DecidableEq, Repr

/-- One resolved domain, with the subscriber set its notice goes to. -/
structure Resolution where
  domain : DomainNo
  what : Resolved
  subscribers : BoardSet
  deriving DecidableEq, Repr

/-- Step 2 of R108 for one domain: its pending change is resolved. -/
def State.resolveOne (acc : State × List Resolution) (d : DomainNo) : State × List Resolution :=
  match acc.1.domain d with
  | none => acc
  | some r =>
    match r.life with
    | .active (.pause reason) =>
      (acc.1.setDomain d (some { r with life := .paused reason }), acc.2 ++ [⟨d, .paused reason, r.subscribers⟩])
    | .active .retire => (acc.1.freeDomain d, acc.2 ++ [⟨d, .retired, r.subscribers⟩])
    | .active (.revisePrimary period high) =>
      (acc.1.setDomain d (some { r.revisePrimary period high (r.phase % period) with life := .active .nothing }),
        acc.2 ++ [⟨d, .revised, r.subscribers⟩])
    | .active (.reviseCompanion gap) =>
      (acc.1.setDomain d (some { r.reviseCompanion gap with life := .active .nothing }),
        acc.2 ++ [⟨d, .revised, r.subscribers⟩])
    | .active .nothing => acc
    | .defined => acc
    | .paused _ => acc

/-- Step 2: every record, in ascending number. -/
def State.resolveAll (s : State) : State × List Resolution := allDomains.foldl State.resolveOne (s, [])

/-- Step 3: every level is the park level and every count 0. -/
def State.resetLevels (s : State) : State := s.mapDomains fun _ r => { r with level := r.park, count := 0 }

/-- Step 4: the calendar rebuilt with one first edge for each ACTIVE record (R14, R72). -/
def State.rebuildCalendar (s : State) : State :=
  { s with
    calendar := allDomains.foldl (fun c d =>
      match s.domain d with
      | some r => if r.isActive then Calendar.insert (s.rewindEdge d r) c else c
      | none => c) [] }

/-- Step 6: the notice of a resolved domain, with the values in force after step 2. -/
def State.resolutionNotice (s : State) (x : Resolution) : List (Notice × BoardSet) :=
  match x.what with
  | .paused reason => [(.paused x.domain reason, x.subscribers)]
  | .retired => [(.retired x.domain, x.subscribers)]
  | .revised =>
    match s.domain x.domain with
    | some r => [(s.revisedNotice x.domain r, x.subscribers)]
    | none => []

/-- Steps 1 to 4: time 0, pending changes resolved, levels and counts reset, the calendar rebuilt. -/
def State.rewindRecords (s : State) : State := ({ s with time := 0 }).resolveAll.1.resetLevels.rebuildCalendar

/-- REWIND's notices (R108 step 6). -/
def State.rewindNotices (s : State) : List (Notice × BoardSet) :=
  (({ s with time := 0 }).resolveAll.2).flatMap s.rewindRecords.resolutionNotice

/-- REWIND, its steps in R108's order. -/
def State.rewind (s : State) : State :=
  ((s.rewindRecords.issueLevelSet).queueNotices s.rewindNotices).enterDraining .rewind none none none

def answerRewind (_payload : List Byte) (s : State) : Answer := s.levelSetCommand s.rewind

def execRewind (payload : List Byte) (s : State) : Result := .next (s.command Codes.rewind 0 payload answerRewind)

/-- READ RUN (R101). -/
def answerReadRun (_payload : List Byte) (s : State) : Answer := ⟨s, .ok, s.runRecord⟩

def execReadRun (payload : List Byte) (s : State) : Result := .next (s.command Codes.readRun 0 payload answerReadRun)

end Sys2Proof.Machine
end

