-- ==== Sys2Proof/Machine/Scheduler.lean ====
section
/-! DEFINITION. The Edge Scheduler's advance (R70 to R86): the limit checks, the processing of the head group in the five
steps of R78, the edge set, and the stops evaluated at its end. -/

namespace Sys2Proof.Machine

/-- One entry of the set with the subscriber set handed over with it (R82). -/
structure SetEntry where
  domain : DomainNo
  level : Level
  subscribers : BoardSet
  deriving DecidableEq, Repr

/-- An advance while it processes its group (R77): the state so far, the set's entries, the notices held in order of
origin with their subscribers, and the domains noted for the breakpoint. -/
structure Advance where
  state : State
  entries : List SetEntry
  notices : List (Notice × BoardSet)
  breakpoints : List DomainNo

/-- A notice originated for a record's subscribers. -/
def Advance.note (w : Advance) (n : Notice) (dest : BoardSet) : Advance := { w with notices := w.notices ++ [(n, dest)] }

/-- Run one step of R78 on a record that is not FREE. -/
def Advance.withRecord (w : Advance) (d : DomainNo) (k : Domain → Advance) : Advance :=
  match w.state.domain d with
  | some r => k r
  | none => w

/-- Step 1 (R78, R81): the level of the edge, and the entry of the set. -/
def Advance.level (w : Advance) (d : DomainNo) (kind : EdgeKind) : Advance :=
  w.withRecord d fun r =>
    { w with
      state := w.state.setDomain d (some { r with level := kind.level })
      entries := w.entries ++ [⟨d, kind.level, r.subscribers⟩] }

/-- A record's revision applies in an advance: its new fields, slot NONE, and its REVISED notice (R11, R12, R62). -/
def Advance.revised (w : Advance) (d : DomainNo) (r : Domain) : Advance :=
  let r' := { r with life := .active .nothing }
  let s' := w.state.setDomain d (some r')
  ({ w with state := s' }).note (s'.revisedNotice d r') r.subscribers

/-- Step 2, the primary's own revision at a RISE (R11). -/
def Advance.ownRevision (w : Advance) (d : DomainNo) (t : Nat) : Advance :=
  w.withRecord d fun r =>
    match r.source, r.life with
    | .primary _, .active (.revisePrimary period high) => w.revised d (r.revisePrimary period high (t % period))
    | _, _ => w

/-- A primary's record holds a pending REVISE of its own. -/
def Domain.revisionDue (r : Domain) : Bool :=
  match r.source, r.life with
  | .primary _, .active (.revisePrimary _ _) => true
  | _, _ => false

/-- The companion's entry after its parent's RISE at `t` (R12, R71). -/
def Advance.rekeyCompanion (w : Advance) (p : Primary) (c : DomainNo) (t : Nat) : Advance :=
  w.withRecord c fun x => { w with state := w.state.rekey ⟨t + p.high + x.gap, c, .rise⟩ }

/-- Step 2, the ACTIVE companion of a primary settled at the primary's RISE (R12): its gap revision applies, and its
entry is re-keyed when either revision applied. `p` holds the parent's values in force after the RISE. -/
def Advance.settleCompanion (w : Advance) (p : Primary) (c : DomainNo) (t : Nat) (parentRevised : Bool) : Advance :=
  w.withRecord c fun x =>
    match x.life with
    | .active (.reviseCompanion gap) => (w.revised c (x.reviseCompanion gap)).rekeyCompanion p c t
    | .active _ => if parentRevised then w.rekeyCompanion p c t else w
    | .defined => w
    | .paused _ => w

/-- Step 2 at a RISE (R78). -/
def Advance.revision (w : Advance) (d : DomainNo) (t : Nat) : Advance :=
  w.withRecord d fun before =>
    let w' := w.ownRevision d t
    w'.withRecord d fun r =>
      match r.source with
      | .companion _ => w'
      | .primary p =>
        match p.companion with
        | none => w'
        | some c => w'.settleCompanion p c t before.revisionDue

/-- The count saturates at 2^32 - 1 (R40). -/
def countLimit : Nat := 2 ^ 32 - 1

/-- The increment brings the count to the stop count (R41). -/
def Domain.reachesStop (r : Domain) : Option StopAction :=
  match r.stop with
  | none => none
  | some x => if r.count < countLimit ∧ r.count + 1 = x.count then some x.action else none

/-- PAUSE_DOMAIN installs a pause of reason COUNT when the slot is NONE, but not under an ACTIVE companion (R61). -/
def State.countPause (s : State) (r : Domain) : Domain :=
  if r.life = .active .nothing ∧ s.companionActive r = false then { r with life := .active (.pause .count) } else r

/-- Steps 3 and 4 at a RISE (R78): the count, COUNT(d), and the stop action (R61). -/
def Advance.count (w : Advance) (d : DomainNo) : Advance :=
  w.withRecord d fun r =>
    let counted := { r with count := min countLimit (r.count + 1) }
    match r.reachesStop with
    | none => { w with state := w.state.setDomain d (some counted) }
    | some .notify => { w with state := (w.state.setDomain d (some counted)).raise (.count d) }
    | some .stopCabinet =>
      { w with
        state := (w.state.setDomain d (some counted)).raise (.count d)
        breakpoints := w.breakpoints ++ [d] }
    | some .pauseDomain =>
      { w with state := (w.state.setDomain d (some (w.state.countPause counted))).raise (.count d) }

/-- Step 5 (R53, R57, R70, R78): a pending PAUSE or RETIRE completes at a park-reaching edge; otherwise the next edge is
inserted. -/
def Advance.finish (w : Advance) (d : DomainNo) (kind : EdgeKind) (t : Nat) : Advance :=
  w.withRecord d fun r =>
    let onward := { w with state := w.state.insertEntry (w.state.edgeAfter d r kind t) }
    if kind.level = r.park then
      match r.life with
      | .active (.pause reason) =>
        ({ w with state := w.state.setDomain d (some { r with life := .paused reason }) }).note
          (.paused d reason) r.subscribers
      | .active .retire => ({ w with state := w.state.freeDomain d }).note (.retired d) r.subscribers
      | .active .nothing => onward
      | .active (.revisePrimary _ _) => onward
      | .active (.reviseCompanion _) => onward
      | .defined => onward
      | .paused _ => onward
    else onward

/-- One domain's edge, whole (R78). -/
def Advance.edge (t : Nat) (w : Advance) (x : Entry) : Advance :=
  match x.kind with
  | .rise => (((w.level x.domain .rise).revision x.domain t).count x.domain).finish x.domain .rise t
  | .fall => (w.level x.domain .fall).finish x.domain .fall t

/-- The head group processed in domain-number order (R70, R77). -/
def State.processGroup (s : State) (t : Nat) : Advance :=
  (s.calendar.filter fun e => decide (e.time = t)).foldl (Advance.edge t)
    ⟨{ s with calendar := s.calendar.filter fun e => !decide (e.time = t) }, [], [], []⟩

/-- A member's copy of an edge set: the entries whose subscriber set held it (R133). -/
def entriesOf (l : List SetEntry) (b : BoardNo) : List (DomainNo × Level) :=
  (l.filter fun x => Bits.has x.subscribers b).map fun x => (x.domain, x.level)

/-- The set takes the next number, and emulation time becomes its time (R74, R82). -/
def State.stampSet (s : State) (t : Nat) : State := { s with seq := s.seq + 1, time := t }

/-- The set is numbered, timed, formed, handed over, and followed by the notices (R81, R82). -/
def State.issueSet (w : Advance) (t : Nat) : State :=
  ((w.state.stampSet t).deliver .edge t (entriesOf w.entries)).queueNotices w.notices

/-- A breakpoint drains the run, naming the lowest domain (R83). -/
def State.breakpointStop (s : State) (l : List DomainNo) : State :=
  match l with
  | [] => s
  | d :: _ => s.enterDraining .breakpoint none (some d) none

/-- A SETS budget is decremented, and at 0 drains a run that is still RUNNING (R84). -/
def State.budgetStop (s : State) : State :=
  match s.budget with
  | .sets n =>
    let s' := { s with budget := .sets (n - 1) }
    if n - 1 = 0 ∧ s'.runState = .running then s'.enterDraining .budget none none none else s'
  | .unlimited => s
  | .untilTime _ => s

/-- An empty calendar drains a run that is still RUNNING (R85). -/
def State.emptyStop (s : State) : State :=
  if s.runState = .running ∧ s.calendar = [] then s.enterDraining .noEdges none none none else s

/-- The UNTIL limit is passed (R76). -/
def Budget.past (b : Budget) (t : Nat) : Bool :=
  match b with
  | .untilTime l => decide (l < t)
  | .unlimited => false
  | .sets _ => false

/-- One advance from the head time (R75): the limit checks, and otherwise the set and the stops in their order. -/
def State.advanceAt (s : State) (t : Nat) : State :=
  if Config.timeLimit < t then s.enterDraining .timeLimit none none none
  else if s.budget.past t then s.enterDraining .budget none none none
  else
    let w := s.processGroup t
    (((State.issueSet w t).breakpointStop w.breakpoints).budgetStop).emptyStop

/-- ADVANCE (R75, R90): taken while the advance condition holds. -/
def execAdvance (s : State) : Result :=
  .next (
    if s.advanceCondition then
      match s.calendar with
      | e :: _ => s.advanceAt e.time
      | [] => s
    else s)

end Sys2Proof.Machine
end

