-- ==== Sys2Proof/Machine/ServiceFrames.lean ====
section
/-! DEFINITION. A service frame routed by its command code (R171, R175), and the two commands that carry a code. -/

namespace Sys2Proof.Machine

/-- The frame of a command code and its payload is that code's, whatever row it is given under (R171, R175, R184). -/
def takeServiceFrame (code : Byte) (payload : List Byte) (s : State) : Result :=
  match RecordKind.ofCode code with
  | some k => .next (s.recordFrame k code payload)
  | none =>
    if code = Codes.run then execRun payload s
    else if code = Codes.step then execStep payload s
    else if code = Codes.stop then execStop payload s
    else if code = Codes.clear then execClear payload s
    else if code = Codes.rewind then execRewind payload s
    else if code = Codes.resync then execResync payload s
    else if code = Codes.readRun then execReadRun payload s
    else if code = Codes.admitBoard then execAdmitBoard payload s
    else if code = Codes.expel then execExpel payload s
    else if code = Codes.retrain then execRetrain payload s
    else if code = Codes.setBoard then execSetBoard payload s
    else if code = Codes.readBoard then execReadBoard payload s
    else if code = Codes.setCabinet then execSetCabinet payload s
    else if code = Codes.identify then execIdentify payload s
    else if code = Codes.softReset then execSoftReset payload s
    else if code = Codes.readEvents then execReadEvents payload s
    else if code = Codes.setMask then execSetMask payload s
    else if code = Codes.readReply then execReadReply payload.length s
    else .next (s.unknownFrame code payload)

/-- RECORD_COMMAND_ENTERS_SLOT (R164, R171, R173); another command's code is that command's frame (log 16). -/
def execRecordCommandEntersSlot (code : Byte) (payload : List Byte) (s : State) : Result :=
  takeServiceFrame code payload s

/-- UNKNOWN_COMMAND_CODE (R171): a frame whose code is not in the table, or which ends before it has one (log 10); a known
code is that command's frame (log 16). -/
def execUnknownCommandCode (code : Option Byte) (payload : List Byte) (s : State) : Result :=
  match code with
  | some c => takeServiceFrame c payload s
  | none => .next s.shortFrame

end Sys2Proof.Machine
end

