-- ==== Sys2Proof/Machine/Dispatch.lean ====
section
/-! DEFINITION. One arm for each command, each one call of its meaning. -/

namespace Sys2Proof.Machine

def exec (i : Instr) (s : State) : Host.Outcome State Fault Refusal :=
  match i with
  | .powerOnReset => Sys2Proof.Machine.execPowerOnReset s
  | .resetInitialisationComplete => Sys2Proof.Machine.execResetInitialisationComplete s
  | .haltNAsserted => Sys2Proof.Machine.execHaltNAsserted s
  | .lineActivityDetected b => Sys2Proof.Machine.execLineActivityDetected b s
  | .lossOfSignal b => Sys2Proof.Machine.execLossOfSignal b s
  | .probeAnswerTimeout b => Sys2Proof.Machine.execProbeAnswerTimeout b s
  | .echo b number capacityCode arrival => Sys2Proof.Machine.execEcho b number capacityCode arrival s
  | .frameCheck b => Sys2Proof.Machine.execFrameCheck b s
  | .badFrame b => Sys2Proof.Machine.execBadFrame b s
  | .error b => Sys2Proof.Machine.execError b s
  | .ack b seq16 => Sys2Proof.Machine.execAck b seq16 s
  | .ackTimeout b => Sys2Proof.Machine.execAckTimeout b s
  | .hold b cause => Sys2Proof.Machine.execHold b cause s
  | .release b cause => Sys2Proof.Machine.execRelease b cause s
  | .holdTimeout b => Sys2Proof.Machine.execHoldTimeout b s
  | .stopFrame b code => Sys2Proof.Machine.execStopFrame b code s
  | .request b tag kind params => Sys2Proof.Machine.execRequest b tag kind params s
  | .replySent b tag => Sys2Proof.Machine.execReplySent b tag s
  | .recordCommandEntersSlot code payload => Sys2Proof.Machine.execRecordCommandEntersSlot code payload s
  | .unknownRequestKind => Sys2Proof.Machine.execUnknownRequestKind s
  | .unknownCommandCode code payload => Sys2Proof.Machine.execUnknownCommandCode code payload s
  | .create => Sys2Proof.Machine.execCreate s
  | .find => Sys2Proof.Machine.execFind s
  | .lookup => Sys2Proof.Machine.execLookup s
  | .list => Sys2Proof.Machine.execList s
  | .listFrom => Sys2Proof.Machine.execListFrom s
  | .attach => Sys2Proof.Machine.execAttach s
  | .detach => Sys2Proof.Machine.execDetach s
  | .start => Sys2Proof.Machine.execStart s
  | .resume => Sys2Proof.Machine.execResume s
  | .revise => Sys2Proof.Machine.execRevise s
  | .pause => Sys2Proof.Machine.execPause s
  | .retire => Sys2Proof.Machine.execRetire s
  | .cancel => Sys2Proof.Machine.execCancel s
  | .setStop => Sys2Proof.Machine.execSetStop s
  | .advance => Sys2Proof.Machine.execAdvance s
  | .run payload => Sys2Proof.Machine.execRun payload s
  | .step payload => Sys2Proof.Machine.execStep payload s
  | .stop payload => Sys2Proof.Machine.execStop payload s
  | .clear payload => Sys2Proof.Machine.execClear payload s
  | .rewind payload => Sys2Proof.Machine.execRewind payload s
  | .resync payload => Sys2Proof.Machine.execResync payload s
  | .readRun payload => Sys2Proof.Machine.execReadRun payload s
  | .admitBoard payload => Sys2Proof.Machine.execAdmitBoard payload s
  | .expel payload => Sys2Proof.Machine.execExpel payload s
  | .retrain payload => Sys2Proof.Machine.execRetrain payload s
  | .setBoard payload => Sys2Proof.Machine.execSetBoard payload s
  | .readBoard payload => Sys2Proof.Machine.execReadBoard payload s
  | .setCabinet payload => Sys2Proof.Machine.execSetCabinet payload s
  | .identify payload => Sys2Proof.Machine.execIdentify payload s
  | .softReset payload => Sys2Proof.Machine.execSoftReset payload s
  | .readEvents payload => Sys2Proof.Machine.execReadEvents payload s
  | .setMask payload => Sys2Proof.Machine.execSetMask payload s
  | .readReply clocked => Sys2Proof.Machine.execReadReply clocked s
  | .haltNNegated => Sys2Proof.Machine.execHaltNNegated s
  | .resetNNegated => Sys2Proof.Machine.execResetNNegated s
  | .scsNAsserted => Sys2Proof.Machine.execScsNAsserted s

end Sys2Proof.Machine
end

