-- ==== Sys2Proof/Machine/Idle.lean ====
section
/-! DEFINITION. What the part does by itself when no command waits: the events of its own that are due, and the passing
of one period of REFCLK (log 3, log 4, log 5). -/

namespace Sys2Proof.Machine

/-- The grant that takes a request code to the Domain Table (R164, R165, R184). -/
def grantCommand (code : Byte) : Instr :=
  match RecordKind.ofCode code with
  | none => .unknownRequestKind
  | some .create => .create
  | some .find => .find
  | some .lookup => .lookup
  | some .list => .list
  | some .listFrom => .listFrom
  | some .attach => .attach
  | some .detach => .detach
  | some .start => .start
  | some .resume => .resume
  | some .revise => .revise
  | some .pause => .pause
  | some .retire => .retire
  | some .cancel => .cancel
  | some .setStop => .setStop

/-- A timer whose instant has come gives its event. -/
def whenDue (clock : Nat) (deadline : Option Nat) (c : Instr) : List Instr :=
  match deadline with
  | some t => if t ≤ clock then [c] else []
  | none => []

/-- The end of the probe wait of a TRAINING link (R116). -/
def Link.probeDeadline : Link → Option Nat
  | .training t => some t.deadline
  | .down => none
  | .linked => none
  | .fault => none

/-- The timer events due on one link (R116, R145, R155). -/
def Board.dueEvents (e : Board) (clock : Nat) (b : BoardNo) : List Instr :=
  whenDue clock e.link.probeDeadline (.probeAnswerTimeout b) ++
  whenDue clock (e.ackTimer.map AckTimer.deadline) (.ackTimeout b) ++
  whenDue clock e.holdTimer (.holdTimeout b)

/-- The instant at which initialisation ends (R89). -/
def Phase.deadline : Phase → Option Nat
  | .initialising t => some t
  | .resetHeld => none
  | .ready => none

/-- Every event of the part itself that is due: the end of initialisation, the timers, the next grant (R166, R167), and
an advance while its condition holds (R90). -/
def State.dueEvents (s : State) : List Instr :=
  whenDue s.clock s.phase.deadline .resetInitialisationComplete ++
  allBoards.flatMap (fun b => (s.board b).dueEvents s.clock b) ++
  (s.nextGrant.map fun g => grantCommand g.code).toList ++
  (if s.advanceCondition then [.advance] else [])

/-- The frames whose sending ends in this period leave their queues (R122; log 5): the answers still queued on a link
in FAULT go on being sent. -/
def State.sendFrames (s : State) : State :=
  s.mapBoards fun b e => if e.reachesHoldUnit && Config.frameSent s.freeCount b.val then e.sendHead else e

/-- One period of REFCLK in which nothing is due. -/
def State.tick (s : State) : State := { s.sendFrames with clock := s.clock + 1, freeCount := s.freeCount + 1 }

/-- One of the due events is taken up, whichever it is (log 4): it becomes the waiting command. -/
def State.takeUp (s : State) (c : Instr) (cs : List Instr) : State :=
  { s with
    freeCount := s.freeCount + 1
    pending := [(c :: cs).getD (Config.freeChoice s.freeCount % (cs.length + 1)) c] }

/-- The idle step (log 3). -/
def State.idle (s : State) : State :=
  match s.dueEvents with
  | [] => s.tick
  | c :: cs => s.takeUp c cs

end Sys2Proof.Machine
end

