-- ==== Sys2Proof/Safety.lean ====
section
/-! DEFINITION. The laws of the manual that hold between any two steps, as invariants of the model: ranges (R3, R15,
R92, R112, R166, R176, R179), the board and run laws (R88, R98, R102, R124, R138, R149, R154, R157), the quiet of reset
(R89, R113, R179), the Domain Table's laws (R5, R8, R19, R28, R59) and the Edge Calendar's (R2, R67, R68). -/

namespace Sys2Proof.Safety

open Sys2Proof.Machine

/-! Ranges -/

/-- A training attempt in progress (R116, R117, R119). -/
structure TrainingInRange (t : Training) : Prop where
  filter : t.filterK = 4 ∨ t.filterK = 8 ∨ t.filterK = 16
  probes : 1 ≤ t.probeCount ∧ t.probeCount ≤ 64
  short : t.run.length < t.filterK
  captured : ∀ x ∈ t.run, 1 ≤ x ∧ x ≤ 10000
  spread : largest t.run ≤ smallest t.run + 2

/-- The numbers of a board entry (R112). -/
structure BoardInRange (e : Board) : Prop where
  window : 1 ≤ e.window ∧ e.window ≤ 8
  holdLimit : e.holdLimit ≤ 65535
  ackBase : 1 ≤ e.ackBase ∧ e.ackBase ≤ 65535
  roundTrip : e.roundTrip ≤ 10000
  ackWait : e.longestAckWait ≤ 65535
  training : ∀ t, e.link = .training t → TrainingInRange t

/-- The run budget (R92). -/
def BudgetInRange : Budget → Prop
  | .unlimited => True
  | .sets n => n < 2 ^ 32
  | .untilTime l => 1 ≤ l ∧ l < 2 ^ 48

/-- The ranges of the settings, the cursor, the counters, the mask, emulation time, the run budget, the time of the stop
cause record, and the board entries' own numbers; a waiting probe was sent at an instant that has come. The Domain
Table's ranges are `RecordsOk`'s, the calendar's `CalendarExact`'s, and the outstanding counts' `RunSettled`'s. -/
structure InRange (s : State) : Prop where
  filterK : s.filterK = 4 ∨ s.filterK = 8 ∨ s.filterK = 16
  escalationE : 1 ≤ s.escalationE ∧ s.escalationE ≤ 31
  escalation : s.escalation ≤ 31
  mask : s.mask ≤ 7
  listCursor : s.listCursor ≤ 48
  furtherFaults : s.furtherFaults ≤ 255
  time : s.time < 2 ^ 48
  budget : BudgetInRange s.budget
  stopTime : s.stopRecord.time < 2 ^ 48
  probes : ∀ b t, (s.board b).link = .training t → t.sent ≤ s.clock
  boards : ∀ b, BoardInRange (s.board b)

/-! Boards and the run -/

/-- What one board entry keeps in a run state. -/
structure BoardSettled (run : RunState) (e : Board) : Prop where
  window : e.outstanding ≤ e.window
  outOfService : e.member = false ∨ e.isLinked = false → e.outstanding = 0 ∧ e.held = 0
  ackTimer : e.ackTimer.isSome = decide (0 < e.outstanding)
  holdTimer : e.holdTimer.isSome = true → run = .running ∧ e.held ≠ 0
  holdArmed : run = .running → e.held ≠ 0 → e.holdLimit ≠ 0 → e.holdTimer.isSome = true
  slots : e.isLinked = false → e.slot 0 = .empty ∧ e.slot 1 = .empty
  silent : e.link = .down ∨ (∃ t, e.link = .training t) → e.txQueue = []
  capacity : e.isLinked = true → e.capacity.isSome = true
  timedOut : e.timedOut ≠ 0 → e.link = .fault ∧ e.lastFault = some .holdTimeout
  memberLinked : e.member = true → run ≠ .halted → e.isLinked = true

/-- The board entries and the run state agree. -/
structure RunSettled (s : State) : Prop where
  windows : ∀ b, 1 ≤ (s.board b).window
  boards : ∀ b, BoardSettled s.runState (s.board b)
  stopped : s.runState = .stopped → ∀ b, (s.board b).outstanding = 0
  draining : s.runState = .draining → ∃ b, (s.board b).member = true ∧ 0 < (s.board b).outstanding
  running : s.runState = .running → s.calendar ≠ [] ∧ ∃ b, (s.board b).member = true
  furtherFaults : s.runState ≠ .halted → s.furtherFaults = 0

/-- A board slot is REPLIED exactly while its reply stands in the transmit queue, once (R161, R163). -/
structure RepliesQueued (e : Board) : Prop where
  replied : ∀ t, e.slot t = .replied ↔ e.replyQueued t = true
  once : ∀ t, e.txQueue.countP (Frame.occupies t) ≤ 1

/-! Reset -/

/-- While RESET_N is asserted and during reset initialisation (R18, R73, R89, R113, R172, R179). -/
structure QuietInReset (s : State) : Prop where
  frame : s.frame ≠ some .ready ∧ s.frame ≠ some .busy
  slot : s.slot = .empty
  boards : ∀ b, (s.board b).link = .down ∧ (s.board b).member = false ∧ (s.board b).slot 0 = .empty ∧
    (s.board b).slot 1 = .empty ∧ (s.board b).ackTimer = none ∧ (s.board b).holdTimer = none
  records : ∀ d, s.domain d = none
  calendar : s.calendar = []
  runState : s.runState = .stopped
  events : s.events = Events.none

/-- The quiet holds outside service. -/
def Quiet (s : State) : Prop := s.phase ≠ .ready → QuietInReset s

/-! The Domain Table -/

/-- The ranges of a primary's period, high time and phase (R3). -/
def waveInRange (period high phase : Nat) : Prop :=
  2 ≤ period ∧ period ≤ 65535 ∧ 1 ≤ high ∧ high < period ∧ phase < period

/-- The fields of the record's kind (R3, R7, R15). -/
def SourceInRange : Source → Prop
  | .primary p => waveInRange p.period p.high p.phase
  | .companion c => 1 ≤ c.gap ∧ c.gap ≤ 255

/-- The slot fits the record's kind and its values are in range (R44, R48). -/
def PendingFits : Source → Pending → Prop
  | .primary _, .revisePrimary period high => 2 ≤ period ∧ period ≤ 65535 ∧ 1 ≤ high ∧ high < period
  | .companion _, .reviseCompanion gap => 1 ≤ gap ∧ gap ≤ 255
  | .primary _, .reviseCompanion _ => False
  | .companion _, .revisePrimary _ _ => False
  | _, _ => True

/-- One non-FREE record (R15). -/
structure DomainValid (r : Domain) : Prop where
  label : 1 ≤ r.label ∧ r.label ≤ 65535
  source : SourceInRange r.source
  count : r.count < 2 ^ 32
  stop : ∀ x, r.stop = some x → 1 ≤ x.count ∧ x.count < 2 ^ 32
  slot : ∀ p, r.life = .active p → PendingFits r.source p

/-- The gap of a companion against a period and a high time, both its gap in force and its pending one (R8). -/
def gapsFit (r : Domain) (period high : Nat) : Prop :=
  gapOk period high r.gap = true ∧ ∀ g, r.life = .active (.reviseCompanion g) → gapOk period high g = true

/-- The Domain Table's own laws (R8, R15, R19, R28, R47, R59). -/
structure RecordsOk (s : State) : Prop where
  valid : ∀ d r, s.domain d = some r → DomainValid r
  labels : ∀ d e r q, s.domain d = some r → s.domain e = some q → r.label = q.label → d = e
  parent : ∀ d r c, s.domain d = some r → r.source = .companion c →
    ∃ q p, s.domain c.parent = some q ∧ q.source = .primary p ∧ p.companion = some d
  child : ∀ d r p c, s.domain d = some r → r.source = .primary p → p.companion = some c →
    ∃ q g, s.domain c = some q ∧ q.source = .companion ⟨d, g⟩
  gap : ∀ d r c q p, s.domain d = some r → r.source = .companion c → s.domain c.parent = some q →
    q.source = .primary p → gapsFit r p.period p.high
  pendingGap : ∀ d r c q period high, s.domain d = some r → r.source = .companion c → s.domain c.parent = some q →
    q.life = .active (.revisePrimary period high) → gapsFit r period high
  coupled : ∀ d r c q, s.domain d = some r → r.source = .companion c → r.isActive = true →
    s.domain c.parent = some q → q.isActive = true ∧ q.stopping = false
  kept : ∀ d r, s.domain d = some r → r.companionNo ≠ none → r.life ≠ .active .retire

/-! The Edge Calendar -/

/-- Sorted by time and domain number, every entry ahead of emulation time (R67, R68). -/
structure CalendarAhead (s : State) : Prop where
  sorted : s.calendar.Pairwise fun x y => y.before x = false
  ahead : ∀ x ∈ s.calendar, s.time < x.time
  time : s.time < 2 ^ 48

/-- Where a companion's next edge stands against its parent's (R8, R71): a parent that is HIGH falls a gap before the
companion rises; a companion that is HIGH falls a gap before its parent rises; and while both are LOW the companion
rises a gap after the parent's last fall, or a gap after the parent's next one. -/
def pairTimed (p : Primary) (gap : Nat) (parentLevel level : Level) (parentTime time : Nat) : Prop :=
  match parentLevel, level with
  | .high, .low => time = parentTime + gap
  | .low, .high => parentTime = time + gap
  | .low, .low => time = parentTime + p.high + gap ∨ time + (p.period - p.high) = parentTime + gap
  | .high, .high => False

/-- The calendar against the records (R4, R5, R6, R17, R68, R71), its entries' times in R67's range. -/
structure CalendarExact (s : State) : Prop where
  sorted : s.calendar.Pairwise fun x y => x.before y = true
  unique : ∀ x ∈ s.calendar, ∀ y ∈ s.calendar, x.domain = y.domain → x = y
  active : ∀ d r, s.domain d = some r → r.isActive = true → ∃ x ∈ s.calendar, x.domain = d
  owned : ∀ x ∈ s.calendar, ∃ r, s.domain x.domain = some r ∧ r.isActive = true ∧
    (x.kind = .rise ↔ r.level = .low)
  ahead : ∀ x ∈ s.calendar, s.time < x.time
  time : s.time < 2 ^ 48
  range : ∀ x ∈ s.calendar, 1 ≤ x.time ∧ x.time < 2 ^ 49
  near : ∀ x ∈ s.calendar, ∀ r p, s.domain x.domain = some r → r.source = .primary p → x.time ≤ s.time + p.period
  phase : ∀ x ∈ s.calendar, ∀ r p, s.domain x.domain = some r → r.source = .primary p →
    match x.kind with
    | .rise => x.time % p.period = p.phase % p.period
    | .fall => x.time % p.period = (p.phase + p.high) % p.period
  parked : ∀ d r, s.domain d = some r → r.isActive = false → r.level = r.park
  pairs : ∀ x ∈ s.calendar, ∀ y ∈ s.calendar, ∀ r q c p, s.domain x.domain = some r → r.source = .companion c →
    y.domain = c.parent → s.domain c.parent = some q → q.source = .primary p →
    pairTimed p c.gap q.level r.level y.time x.time

/-- A companion and its parent are never both HIGH (R8). -/
def NoOverlap (s : State) : Prop :=
  ∀ d r c q, s.domain d = some r → r.source = .companion c → s.domain c.parent = some q →
    ¬ (r.level = .high ∧ q.level = .high)

/-! The words of the statements about single commands -/

/-- A service command of `n` payload bytes whose frame was READY has been taken and answered at once: the slot holds
its reply and SDO has carried the status byte 80h and filler (R172, R173, R186). -/
def answered (s : State) (code : Byte) (status : Status) (data : List Byte) (n : Nat) : State :=
  { s with slot := .done code status data, frame := none, sdo := 0x80#8 :: List.replicate n 0x00#8 }

/-- A granted request has been taken: the arbiter has moved on, the effect is made, the reply goes back by the
request's own path and the notices are queued after it (R24, R165, R166, R167). -/
def granted (s : State) (g : Grant) (effect : State → State) (status : Status) (data : List Byte)
    (notices : List (Notice × BoardSet)) : State :=
  ((effect (s.moveArbiter g)).putReply g status data).queueNotices notices

/-- The request the arbiter grants next is of kind `k` with these parameter bytes. -/
structure NextRequest (s : State) (g : Grant) (k : RecordKind) (params : List Byte) : Prop where
  next : s.nextGrant = some g
  code : g.code = k.code
  params : g.params = params

/-- The requester may change the record: the service, or the board that owns it (R22). -/
def mayChange (g : Grant) (r : Domain) : Prop := g.requester.owner = .service ∨ g.requester.owner = r.owner

/-- Every member has nothing outstanding (R98). -/
def membersClear (s : State) : Prop := ∀ b, (s.board b).member = true → (s.board b).outstanding = 0

/-- Every hold timer is disarmed (R154). -/
def holdTimersOff (s : State) : Vector Board 64 := Vector.ofFn fun b => { s.board b with holdTimer := none }

end Sys2Proof.Safety
end

