-- ==== Sys2Proof/Certificates/Slice0/Obligations.lean ====
section
/-! DEFINITION. The statements for the provers, each a rule or a group of rules of the manual over every state. -/

open Sys2Proof Sys2Proof.Machine Sys2Proof.Safety

/-! The block and its queue -/

/-- The front command is taken with the queue's rest (the model's queue, log 3). -/
def Obligations.StepTakesFrontCommand : Prop :=
  ∀ (c : Instr) (rest : List Instr) (s : State),
    step { s with pending := c :: rest } = exec c { s with pending := rest }

/-- (1) On an empty queue the part idles, which is the model's choice (log 3, log 4, log 5): it takes up one of its
own due events, or one period of REFCLK passes. Frames may leave transmit queues in that period; nothing else
changes. (2) The due events are those whose condition holds now: the end of initialisation and a timer whose instant
has come (R89, R116, R145, R155; log 7), the arbiter's next grant under the command of its request code (R165, R184),
and an advance while its condition holds (R75, R90). -/
def Obligations.EmptyQueueIdles : Prop :=
  (∀ s : State, s.pending = [] →
     (s.dueEvents = [] → ∃ boards, step s =
       .next { s with boards := boards, clock := s.clock + 1, freeCount := s.freeCount + 1 } ∧
       ∀ b, boards[b] = s.board b ∨ boards[b] = (s.board b).sendHead) ∧
     (s.dueEvents ≠ [] → ∃ c ∈ s.dueEvents, step s = .next { s with pending := [c], freeCount := s.freeCount + 1 })) ∧
  (∀ (s : State) (c : Instr), c ∈ s.dueEvents ↔
     (∃ t, s.phase = .initialising t ∧ t ≤ s.clock ∧ c = .resetInitialisationComplete) ∨
     (∃ b t, (s.board b).link = .training t ∧ t.sent + 10000 ≤ s.clock ∧ c = .probeAnswerTimeout b) ∨
     (∃ b t, (s.board b).ackTimer = some t ∧ t.deadline ≤ s.clock ∧ c = .ackTimeout b) ∨
     (∃ b t, (s.board b).holdTimer = some t ∧ t ≤ s.clock ∧ c = .holdTimeout b) ∨
     (∃ g, s.nextGrant = some g ∧
       ((g.code = 0x00#8 ∨ 0x0E#8 < g.code) ∧ c = .unknownRequestKind ∨
         (g.code, c) ∈ [(0x01#8, Instr.create), (0x02#8, .find), (0x03#8, .lookup), (0x04#8, .list),
           (0x05#8, .listFrom), (0x06#8, .attach), (0x07#8, .detach), (0x08#8, .start), (0x09#8, .resume),
           (0x0A#8, .revise), (0x0B#8, .pause), (0x0C#8, .retire), (0x0D#8, .cancel), (0x0E#8, .setStop)])) ∨
     (s.advanceCondition = true ∧ c = .advance))

/-- Every command completes in every state, whatever its operands, and leaves the queue alone, which is the model's
own (log 3): the part stops on nothing, and what it does not take changes nothing. A service command acts as the
frame it spells, whatever row it is given under: by its command code (R171, R175, R184). A REQUEST longer than R182
lets it be fails the form check and is a malformed frame (R120). What the model does with such operands is its choice
(log 16). -/
def Obligations.EveryCommandCompletes : Prop :=
  ∀ (c : Instr) (s : State),
    (∃ t, exec c s = .next t ∧ t.pending = s.pending) ∧
    (∀ bytes, encodeServiceFrame c = some bytes → exec c s = exec (decodeServiceFrame bytes) s) ∧
    (∀ b tag kind params, c = .request b tag kind params → 17 < params.length → exec c s = exec (.badFrame b) s)

/-! Reset and the lines -/

/-- What power-on reset leaves, in the values the manual gives (R1, R18, R73, R74, R89, R113, R169, R173, R176, R179,
R181). -/
def Obligations.ResetStateValues : Prop :=
  let s := State.reset
  s.time = 0 ∧ s.seq = 0 ∧ s.calendar = [] ∧ (∀ d, s.domain d = none) ∧ s.runState = .stopped ∧
  s.budget = .unlimited ∧ s.stopRecord = ⟨.reset, none, none, none, 0, 0⟩ ∧ s.furtherFaults = 0 ∧
  s.pointer = 0 ∧ s.escalation = 0 ∧ s.slot = .empty ∧ s.listCursor = 0 ∧ s.filterK = 8 ∧ s.escalationE = 4 ∧
  s.mask = 0 ∧ s.events.topLevel = 0 ∧ s.attnAsserted = false ∧
  ∀ b, (s.board b).link = .down ∧ (s.board b).member = false ∧ (s.board b).held = 0 ∧ (s.board b).timedOut = 0 ∧
    (s.board b).outstanding = 0 ∧ (s.board b).ackTimer = none ∧ (s.board b).holdTimer = none ∧
    (s.board b).roundTrip = 0 ∧ (s.board b).capacity = none ∧ (s.board b).lastFault = none ∧
    (s.board b).ackedSets = 0 ∧ (s.board b).holdsTaken = 0 ∧ (s.board b).longestAckWait = 0 ∧
    (s.board b).txQueue = [] ∧ (s.board b).window = 2 ∧ (s.board b).holdLimit = 50 ∧ (s.board b).ackBase = 200 ∧
    (s.board b).slot 0 = .empty ∧ (s.board b).slot 1 = .empty

/-- (1) POWER_ON_RESET gives every item its power-on value, whatever the state (R89, R113, R169, R176, R179, R181);
what the model keeps is what is no block's state, the input levels, its clock, its free values and its queue (log
11). A frame in progress is lost, and its status byte is from then on recorded as NOT_READY, the model's choice
(R172; log 12). (2) SOFT RESET in a READY or BUSY frame: every block takes its reset values but each board's W, hold
limit and ack base, K, E and the mask, and initialisation begins; it places no reply (R113, R177). -/
def Obligations.ResetsGiveTheResetValues : Prop :=
  (∀ s : State, exec .powerOnReset s = .next { State.reset with
     clock := s.clock
     haltAsserted := s.haltAsserted
     freeCount := s.freeCount
     pending := s.pending
     frame := if s.frame = none then none else some .notReady
     boards := Vector.ofFn fun b => { Board.powerOn with signal := (s.board b).signal } }) ∧
  (∀ s : State, s.frameStatus ≠ .notReady →
     exec (.softReset []) s = .next { State.reset with
       phase := .initialising (s.clock + 5000)
       clock := s.clock
       haltAsserted := s.haltAsserted
       freeCount := s.freeCount
       pending := s.pending
       sdo := [s.frameStatus.byte]
       filterK := s.filterK
       escalationE := s.escalationE
       mask := s.mask
       boards := Vector.ofFn fun b => { Board.powerOn with
         signal := (s.board b).signal
         window := (s.board b).window
         holdLimit := (s.board b).holdLimit
         ackBase := (s.board b).ackBase } })

/-- RESET_N_NEGATED begins initialisation, which lasts 50 us, and RESET_INITIALISATION_COMPLETE ends it: RESET_DONE
is raised, HALT_N is sampled, and each link that finds signal begins to train (R89, R113, R115, R116, R181). The
clock is moved to the end of initialisation when the command comes before it (the model's clock, log 7), and the
first probe counts as sent at that instant (log 6). Outside their phases both commands change nothing (log 8). -/
def Obligations.InitialisationRunsFromResetToService : Prop :=
  ∀ (s : State) (t : Nat),
    (s.phase = .resetHeld → exec .resetNNegated s = .next { s with phase := .initialising (s.clock + 5000) }) ∧
    (s.phase = .initialising t → s.haltAsserted = false →
      exec .resetInitialisationComplete s = .next { s with
        phase := .ready
        clock := max s.clock t
        events := { s.events with resetDone := true }
        boards := Vector.ofFn fun b =>
          if (s.board b).signal = true ∧ (s.board b).link = .down then
            { s.board b with link := .training ⟨s.filterK, 1, [], max s.clock t⟩ }
          else s.board b }) ∧
    (s.phase = .initialising t → s.haltAsserted = true → s.runState = .stopped →
      exec .resetInitialisationComplete s = .next { s with
        phase := .ready
        clock := max s.clock t
        runState := .halted
        stopRecord := ⟨.haltLine, none, none, none, s.time, s.seq⟩
        events := { s.events with resetDone := true, haltLine := true, halted := true }
        boards := Vector.ofFn fun b =>
          if (s.board b).signal = true ∧ (s.board b).link = .down then
            { s.board b with link := .training ⟨s.filterK, 1, [], max s.clock t⟩, holdTimer := none }
          else { s.board b with holdTimer := none } }) ∧
    (s.phase ≠ .resetHeld → exec .resetNNegated s = .next s) ∧
    ((∀ deadline, s.phase ≠ .initialising deadline) → exec .resetInitialisationComplete s = .next s)

/-- HALT_N in service: an assertion raises HALT_LINE and halts the cabinet unless it is HALTED already; a negation
changes only the level; outside service only the level changes (R89, R103). HALT_N_ASSERTED while the line is
asserted is no change of level and changes nothing (log 8). -/
def Obligations.HaltLineHaltsTheCabinet : Prop :=
  ∀ s : State,
    (s.haltAsserted = false → s.phase = .ready → s.runState ≠ .halted →
      exec .haltNAsserted s = .next { s with
        haltAsserted := true
        runState := .halted
        stopRecord := ⟨.haltLine, none, none, none, s.time, s.seq⟩
        boards := holdTimersOff s
        events := { s.events with haltLine := true, halted := true } }) ∧
    (s.haltAsserted = false → s.phase = .ready → s.runState = .halted →
      exec .haltNAsserted s = .next { s with
        haltAsserted := true
        events := { s.events with haltLine := true } }) ∧
    (s.haltAsserted = false → s.phase ≠ .ready →
      exec .haltNAsserted s = .next { s with haltAsserted := true }) ∧
    (s.haltAsserted = true → exec .haltNAsserted s = .next s) ∧
    exec .haltNNegated s = .next { s with haltAsserted := false }

/-! The service port's frames -/

/-- (1) SCS_N_ASSERTED fixes the status byte of the frame from the state at that instant, and it is shifted out
(R172, R186); RESET_N asserted answers as initialisation does (log 12). (2) A frame whose status byte was not READY
changes nothing but the port's own frame, whatever command it carries, save a SOFT RESET of the right length (R171,
R172, R174, R177). (3) SDO is driven while SCS_N is asserted, first with the status byte, each byte most-significant
bit first, and at high impedance while it is negated, as it is once the frame of any service command has ended, a
frame without a whole command byte too (R170, R171). That a command ends its frame is the model's (log 10); the bytes
driven are those of its record of the frame (log 14). (4) A frame in which fewer than eight clocks came before SCS_N
was negated has no command byte: it is not taken, places no reply and changes nothing, whatever its status byte was;
SCS_N is negated and SDO goes to high impedance (R170, R171). UNKNOWN_COMMAND_CODE without a code is that frame (log
10), and the record of SDO is left with its status byte (log 14). -/
def Obligations.TheStatusByteDecidesTheFrame : Prop :=
  (∀ s : State,
     (s.phase ≠ .ready → exec .scsNAsserted s = .next { s with frame := some .notReady, sdo := [0x82#8] }) ∧
     (∀ code payload, s.phase = .ready → s.slot = .waiting code payload →
       exec .scsNAsserted s = .next { s with frame := some .busy, sdo := [0x81#8] }) ∧
     (s.phase = .ready → (∀ code payload, s.slot ≠ .waiting code payload) →
       exec .scsNAsserted s = .next { s with frame := some .ready, sdo := [0x80#8] })) ∧
  (∀ (s : State) (c : Instr) (bytes : List Byte) (code : Byte) (payload : List Byte),
     s.frameStatus ≠ .ready → encodeServiceFrame c = some bytes → bytes = code :: payload →
     (code = 0x4F#8 → payload = [] → s.frameStatus = .notReady) →
     exec c s = .next { s with
       frame := none
       sdo := s.frameStatus.byte :: List.replicate payload.length 0x00#8 }) ∧
  (∀ s : State,
     (s.frame = none → s.sdoPin = none ∧ s.sdoBits = none) ∧
     (∀ status, s.frame = some status → s.sdoPin = some s.sdo ∧ ∃ bits, s.sdoBits = some bits ∧
       bits.length = 8 * s.sdo.length ∧
       ∀ n x, s.sdo[n]? = some x → ∀ i, i < 8 → bits[8 * n + i]? = some (x.getLsbD (7 - i))) ∧
     (∃ t, exec .scsNAsserted s = .next t ∧ t.sdoPin = some [s.portStatus.byte]) ∧
     (∀ c bytes, encodeServiceFrame c = some bytes →
       ∃ t, exec c s = .next t ∧ t.frame = none ∧ t.sdoPin = none)) ∧
  (∀ (s : State) (payload : List Byte),
     exec (.unknownCommandCode none payload) s = .next { s with frame := none, sdo := [s.frameStatus.byte] } ∧
     ∀ bits : List Bool, bits.length < 8 → decodeServiceBits bits = .unknownCommandCode none [])

/-- (1) A record command of the right length enters the service slot, which becomes WAITING; an unread reply is
discarded (R164, R171, R173, R184). The lengths are those of the table of command codes. (2) A READY frame with an
unknown command code, or with a known one and a payload of the wrong length, puts a BAD_PARAM reply in the slot and
reaches no block (R171). (3) READ REPLY in a READY frame shifts out the slot's snapshot and then 00h, for as many
bytes as are clocked, and the slot is EMPTY however many there are (R174, R186). -/
def Obligations.TheServiceSlotTakesCommandsAndGivesReplies : Prop :=
  (∀ (s : State) (code : Byte) (payload : List Byte),
     s.frameStatus = .ready →
     (code, payload.length) ∈ [(0x01#8, 17), (0x02#8, 2), (0x03#8, 1), (0x04#8, 0), (0x05#8, 1), (0x06#8, 2),
       (0x07#8, 2), (0x08#8, 1), (0x09#8, 1), (0x0A#8, 9), (0x0B#8, 1), (0x0C#8, 1), (0x0D#8, 1), (0x0E#8, 6)] →
     exec (.recordCommandEntersSlot code payload) s = .next { s with
       slot := .waiting code payload
       frame := none
       sdo := 0x80#8 :: List.replicate payload.length 0x00#8 }) ∧
  (∀ (s : State) (payload : List Byte),
     s.frameStatus = .ready →
     (∀ code, Codes.known code = false →
       exec (.unknownCommandCode (some code) payload) s = .next (answered s code .badParam [] payload.length)) ∧
     (∀ code k, RecordKind.ofCode code = some k → payload.length ≠ k.serviceLength →
       exec (.recordCommandEntersSlot code payload) s = .next (answered s code .badParam [] payload.length)) ∧
     (payload.length ≠ 7 → exec (.run payload) s = .next (answered s 0x20#8 .badParam [] payload.length)) ∧
     (payload.length ≠ 6 → exec (.setBoard payload) s = .next (answered s 0x33#8 .badParam [] payload.length)) ∧
     (payload.length ≠ 2 → exec (.setCabinet payload) s = .next (answered s 0x40#8 .badParam [] payload.length)) ∧
     (∀ c code, (c, code) ∈ [(Instr.admitBoard payload, 0x30#8), (.expel payload, 0x31#8), (.retrain payload, 0x32#8),
         (.readBoard payload, 0x34#8), (.setMask payload, 0x51#8)] →
       payload.length ≠ 1 → exec c s = .next (answered s code .badParam [] payload.length)) ∧
     (∀ c code, (c, code) ∈ [(Instr.step payload, 0x21#8), (.stop payload, 0x22#8), (.clear payload, 0x23#8),
         (.rewind payload, 0x24#8), (.resync payload, 0x25#8), (.readRun payload, 0x26#8),
         (.identify payload, 0x41#8), (.softReset payload, 0x4F#8), (.readEvents payload, 0x50#8)] →
       payload.length ≠ 0 → exec c s = .next (answered s code .badParam [] payload.length))) ∧
  (∀ (s : State) (clocked : Nat),
     s.frameStatus = .ready →
     (s.slot = .empty →
       exec (.readReply clocked) s = .next { s with
         frame := none
         sdo := 0x80#8 :: List.replicate clocked 0x00#8 }) ∧
     (∀ code status data, s.slot = .done code status data → ∃ out,
       exec (.readReply clocked) s = .next { s with slot := .empty, frame := none, sdo := 0x80#8 :: out } ∧
       out.length = clocked ∧
       ∀ i, i < clocked → out[i]? =
         some ((0x02#8 :: code :: status.byte :: BitVec.ofNat 8 data.length :: data).getD i 0x00#8)))

/-! Settings and attention -/

/-- (1) SET CABINET and IDENTIFY in a READY frame (R176). (2) SET MASK and READ EVENTS in a READY frame: READ EVENTS
clears what its snapshot holds (R179, R180). -/
def Obligations.CabinetAndAttentionCommandsAnswerAtOnce : Prop :=
  (∀ (s : State) (k e : Byte),
     s.frameStatus = .ready →
     ((k.toNat = 4 ∨ k.toNat = 8 ∨ k.toNat = 16) ∧ 1 ≤ e.toNat ∧ e.toNat ≤ 31 →
       exec (.setCabinet [k, e]) s =
         .next (answered { s with filterK := k.toNat, escalationE := e.toNat } 0x40#8 .ok [] 2)) ∧
     (¬ ((k.toNat = 4 ∨ k.toNat = 8 ∨ k.toNat = 16) ∧ 1 ≤ e.toNat ∧ e.toNat ≤ 31) →
       exec (.setCabinet [k, e]) s = .next (answered s 0x40#8 .badParam [] 2)) ∧
     exec (.identify []) s = .next (answered s 0x41#8 .ok [0x0B#8, 0x64#8, 0x01#8] 0)) ∧
  (∀ (s : State) (m : Byte),
     s.frameStatus = .ready →
     (m.toNat ≤ 7 → exec (.setMask [m]) s = .next (answered { s with mask := m.toNat } 0x51#8 .ok [] 1)) ∧
     (7 < m.toNat → exec (.setMask [m]) s = .next (answered s 0x51#8 .badParam [] 1)) ∧
     exec (.readEvents []) s =
       .next (answered { s with events := ⟨false, false, false, false, 0, 0, 0, 0⟩ } 0x50#8 .ok s.events.bytes 0))

/-- ATTN_N is asserted while a pending event is above the mask level, or HALT_LINE is pending (R178, R179). -/
def Obligations.AttentionFollowsEventsAndMask : Prop :=
  ∀ s : State,
    s.attnAsserted = true ↔
      (∃ e : Event, s.events.has e = true ∧ s.mask < e.level) ∨ s.events.has .haltLine = true

/-! Links, training and faults -/

/-- LINE_ACTIVITY_DETECTED and LOSS_OF_SIGNAL in each link state (R115, R116, R122, R124). The first probe counts as
sent, and its wait and its round trip as begun, at the instant it becomes current (the model's choice, log 6). The
departure of a LINKED board is `State.dropLinked`, which LeavingLinkedClearsTheBoard describes. -/
def Obligations.LineEventsMoveTheLink : Prop :=
  ∀ (s : State) (b : BoardNo),
    let on := { s.board b with signal := true }
    let off := { s.board b with signal := false }
    ((s.board b).link = .down → s.phase = .ready →
      exec (.lineActivityDetected b) s =
        .next (s.setBoard b { on with link := .training ⟨s.filterK, 1, [], s.clock⟩ })) ∧
    ((s.board b).link ≠ .down ∨ s.phase ≠ .ready →
      exec (.lineActivityDetected b) s = .next (s.setBoard b on)) ∧
    ((s.board b).link = .down → exec (.lossOfSignal b) s = .next (s.setBoard b off)) ∧
    (∀ t, (s.board b).link = .training t →
      exec (.lossOfSignal b) s = .next (s.setBoard b { off with link := .down })) ∧
    ((s.board b).link = .fault →
      exec (.lossOfSignal b) s = .next (s.setBoard b { off with txQueue := [] })) ∧
    ((s.board b).link = .linked →
      exec (.lossOfSignal b) s = .next ((s.setBoard b off).dropLinked b))

/-- (1) An ECHO that answers the waiting probe captures its round trip, the units of 10 ns on the clock from the
sending of the PROBE to the reception of the ECHO, 1 to 10000, which joins the agreement run. When K round trips
agree the link is LINKED, with the largest of them as its round trip, and LINK READY stands at the head of its queue;
else the next probe is sent, and after the 64th the attempt fails (R116 to R119). The ECHO is received at its
arrival, to which the model's clock moves, or now when the clock is past it, and within the PROBE's own unit its
round trip counts 1 (log 20); a PROBE is sent at the instant it becomes current (log 6). (2) A missing probe empties
the agreement run and the next probe is sent, or after the 64th the attempt fails: the wait ends without an answer,
the ECHO carries another number or an unknown capacity, or the frame fails its check (R116, R117, R119, R120). The
end of the wait moves the model's clock to its instant (log 7), and so does an ECHO's arrival (log 20); there the
next PROBE is sent (log 6). (3) A frame received after the waiting probe's wait finds that probe missing at the end
of the wait, and comes to what the end has left: the next probe, which a late ECHO ends as missing unless it carries
its number, or a link that is out of TRAINING, where it is not taken (R116, R119). The frames are received as log 20
says. -/
def Obligations.ProbesAreAnsweredOrMissing : Prop :=
  (∀ (s : State) (b : BoardNo) (t : Training) (number code : Byte) (arrival : Nat) (c : Capacity),
     (s.board b).link = .training t → max s.clock (t.sent + arrival) ≤ t.sent + 10000 →
     number.toNat = t.probeCount → Capacity.ofCode code = some c →
     let clock := max s.clock (t.sent + arrival)
     let roundTrip := max 1 (clock - t.sent)
     let run := agree t.run roundTrip
     (1 ≤ roundTrip ∧ roundTrip ≤ 10000 ∧ (t.sent < clock → clock = t.sent + roundTrip)) ∧
     (run.length = t.filterK →
       exec (.echo b number code arrival) s = .next { s.setBoard b { s.board b with
           link := .linked
           roundTrip := run.foldl max 0
           capacity := some c
           txQueue := .linkReady b (100 * (s.board b).ackBase + 4 * run.foldl max 0) (run.foldl max 0) ::
             (s.board b).txQueue } with
         clock := clock
         events := { s.events with linked := Bits.add s.events.linked b } }) ∧
     (run.length ≠ t.filterK → t.probeCount < 64 →
       exec (.echo b number code arrival) s = .next { s.setBoard b { s.board b with
           link := .training { t with probeCount := t.probeCount + 1, run := run, sent := clock } } with
         clock := clock }) ∧
     (run.length ≠ t.filterK → 64 ≤ t.probeCount →
       exec (.echo b number code arrival) s = .next { s.setBoard b { s.board b with
           link := .fault
           lastFault := some .trainFailed } with
         clock := clock
         events := { s.events with boardFault := Bits.add s.events.boardFault b } })) ∧
  (∀ (s : State) (b : BoardNo) (t : Training) (c : Instr) (clock : Nat),
     (s.board b).link = .training t →
     (c = .probeAnswerTimeout b ∧ clock = max s.clock (t.sent + 10000) ∨
       (c = .frameCheck b ∨ c = .badFrame b) ∧ clock = s.clock ∧ clock ≤ t.sent + 10000 ∨
       ∃ number code arrival, c = .echo b number code arrival ∧
         (number.toNat ≠ t.probeCount ∨ Capacity.ofCode code = none) ∧
         clock = max s.clock (t.sent + arrival) ∧ clock ≤ t.sent + 10000) →
     (t.probeCount < 64 → exec c s = .next { s.setBoard b { s.board b with
         link := .training { t with probeCount := t.probeCount + 1, run := [], sent := clock } } with
       clock := clock }) ∧
     (64 ≤ t.probeCount → exec c s = .next { s.setBoard b { s.board b with
         link := .fault
         lastFault := some .trainFailed } with
       clock := clock
       events := { s.events with boardFault := Bits.add s.events.boardFault b } })) ∧
  (∀ (s ended : State) (b : BoardNo) (t : Training) (number code : Byte) (arrival : Nat),
     (s.board b).link = .training t → exec (.probeAnswerTimeout b) s = .next ended →
     let received := max s.clock (t.sent + arrival)
     (t.sent + 10000 < received →
       (∀ next, (ended.board b).link = .training next →
         exec (.echo b number code arrival) s = exec (.echo b number code (received - next.sent)) ended) ∧
       ((∀ next, (ended.board b).link ≠ .training next) → exec (.echo b number code arrival) s = .next ended)) ∧
     (t.sent + 10000 < s.clock →
       exec (.frameCheck b) s = exec (.frameCheck b) ended ∧ exec (.badFrame b) s = exec (.badFrame b) ended))

/-- The run of captured round trips after an answered probe (R117): the longest tail of the run with the new value
whose spread is at most 2 units; it always holds the new value. -/
def Obligations.AgreementRunKeepsTheLongestAgreeingTail : Prop :=
  ∀ (run : List Nat) (x : Nat), ∃ dropped kept,
    run = dropped ++ kept ∧ agree run x = kept ++ [x] ∧
    (∀ y ∈ agree run x, ∀ z ∈ agree run x, y ≤ z + 2) ∧
    (∀ d, d < dropped.length → ∃ y ∈ run.drop d ++ [x], ∃ z ∈ run.drop d ++ [x], z + 2 < y)

/-- (1) What a fault of a LINKED board does: its entry, its event, and the report of a member's departure (R102,
R123, R124, R158, R168). (2) What the loss of a LINKED board's signal does (R102, R115, R124, R158, R168). -/
def Obligations.LeavingLinkedClearsTheBoard : Prop :=
  (∀ (s : State) (b : BoardNo) (kind : FaultKind),
     let gone := { s.board b with
       link := .fault
       lastFault := some kind
       outstanding := 0
       ackTimer := none
       held := 0
       holdTimer := none
       txQueue := []
       slots := Vector.replicate 2 .empty }
     let events := { s.events with boardFault := Bits.add s.events.boardFault b }
     ((s.board b).member = false → s.faultLinked b kind = { s.setBoard b gone with events := events }) ∧
     ((s.board b).member = true → s.runState = .halted →
       s.faultLinked b kind =
         { s.setBoard b gone with events := events, furtherFaults := min 255 (s.furtherFaults + 1) }) ∧
     ((s.board b).member = true → s.runState ≠ .halted →
       s.faultLinked b kind = { s with
         boards := holdTimersOff (s.setBoard b gone)
         events := { events with halted := true }
         runState := .halted
         stopRecord := ⟨.boardFault, some b, none, some kind.byte, s.time, s.seq⟩ })) ∧
  (∀ (s : State) (b : BoardNo),
     let gone := { s.board b with
       link := .down
       outstanding := 0
       ackTimer := none
       held := 0
       holdTimer := none
       txQueue := []
       slots := Vector.replicate 2 .empty }
     let events := { s.events with linkDown := Bits.add s.events.linkDown b }
     ((s.board b).member = false → s.dropLinked b = { s.setBoard b gone with events := events }) ∧
     ((s.board b).member = true → s.runState = .halted →
       s.dropLinked b = { s.setBoard b gone with events := events, furtherFaults := min 255 (s.furtherFaults + 1) }) ∧
     ((s.board b).member = true → s.runState ≠ .halted →
       s.dropLinked b = { s with
         boards := holdTimersOff (s.setBoard b gone)
         events := { events with halted := true }
         runState := .halted
         stopRecord := ⟨.linkLost, some b, none, none, s.time, s.seq⟩ }))

/-- The causes that fault a LINKED board, each with its kind (R120, R121, R123, R145, R155). A timer's expiry is
taken at the timer's own instant, on the model's clock (log 7), and the hold timer's first moves the held causes into
the timed-out set. The effect of a fault is `State.faultLinked`. -/
def Obligations.EachCauseFaultsALinkedBoard : Prop :=
  ∀ (s : State) (b : BoardNo),
    (s.board b).link = .linked →
    exec (.frameCheck b) s = .next (s.faultLinked b .frameCheck) ∧
    exec (.badFrame b) s = .next (s.faultLinked b .badFrame) ∧
    exec (.error b) s = .next (s.faultLinked b .boardError) ∧
    (∀ t, (s.board b).ackTimer = some t →
      exec (.ackTimeout b) s = .next ({ s with clock := max s.clock t.deadline }.faultLinked b .ackTimeout)) ∧
    (∀ t, (s.board b).holdTimer = some t →
      exec (.holdTimeout b) s = .next (({ s with clock := max s.clock t }.setBoard b
        { s.board b with timedOut := (s.board b).held }).faultLinked b .holdTimeout))

/-- (1) Frames and timer events that the state of the link rules out change nothing (R114, R116, R120, R121, R125,
R144, R154; log 8). (2) A grant command of another kind than the arbiter's next grant changes nothing, and so does
UNKNOWN_REQUEST_KIND where the next request's kind is known (the model's choice, log 9). -/
def Obligations.EventsTheStateRulesOutChangeNothing : Prop :=
  (∀ (s : State) (b : BoardNo),
     (∀ number code arrival, (∀ t, (s.board b).link ≠ .training t) →
       exec (.echo b number code arrival) s = .next s) ∧
     ((∀ t, (s.board b).link ≠ .training t) → exec (.probeAnswerTimeout b) s = .next s) ∧
     ((s.board b).link = .down ∨ (s.board b).link = .fault →
       exec (.frameCheck b) s = .next s ∧ exec (.badFrame b) s = .next s) ∧
     ((s.board b).link ≠ .linked →
       exec (.error b) s = .next s ∧ (∀ n, exec (.ack b n) s = .next s) ∧
       ∀ tag kind params, params.length ≤ 17 ∨ (∀ t, (s.board b).link ≠ .training t) →
         exec (.request b tag kind params) s = .next s) ∧
     ((s.board b).link = .down ∨ (∃ t, (s.board b).link = .training t) →
       ∀ x, exec (.hold b x) s = .next s ∧ exec (.release b x) s = .next s ∧ exec (.stopFrame b x) s = .next s) ∧
     ((s.board b).ackTimer = none → exec (.ackTimeout b) s = .next s) ∧
     ((s.board b).holdTimer = none → exec (.holdTimeout b) s = .next s)) ∧
  (∀ (s : State) (k : RecordKind),
     ((∀ g, s.nextGrant = some g → RecordKind.ofCode g.code ≠ some k) →
       exec (grantCommand k.code) s = .next s) ∧
     ((∀ g, s.nextGrant = some g → RecordKind.ofCode g.code ≠ none) →
       exec .unknownRequestKind s = .next s))

/-! Delivery -/

/-- (1) An ACK that names the oldest outstanding set of a LINKED member is taken (R138, R140, R142, R144): the count
falls, the wait is measured, and the timer restarts or stops; in DRAINING the last one brings STOPPED (R98). (2)
Every other ACK from a LINKED board faults it with ACK_ORDER (R141). -/
def Obligations.AcksAreTakenInOrder : Prop :=
  (∀ (s : State) (b : BoardNo) (timer : AckTimer) (seq16 : BitVec 16),
     (s.board b).link = .linked → (s.board b).member = true → 0 < (s.board b).outstanding →
     (s.board b).ackTimer = some timer →
     seq16 = (s.seq - BitVec.ofNat 32 (s.board b).outstanding + 1).setWidth 16 →
     let t := s.setBoard b { s.board b with
       outstanding := (s.board b).outstanding - 1
       ackedSets := (s.board b).ackedSets + 1
       longestAckWait := max (s.board b).longestAckWait (min 65535 ((s.clock - timer.started) / 100))
       ackTimer :=
         if (s.board b).outstanding = 1 then none
         else some ⟨s.clock, s.clock + (100 * (s.board b).ackBase + 4 * (s.board b).roundTrip)⟩ }
     (s.runState = .draining → membersClear t →
       exec (.ack b seq16) s =
         .next { t with runState := .stopped, events := { s.events with stopped := true } }) ∧
     (s.runState ≠ .draining ∨ ¬ membersClear t → exec (.ack b seq16) s = .next t)) ∧
  (∀ (s : State) (b : BoardNo) (seq16 : BitVec 16),
     (s.board b).link = .linked →
     ((s.board b).member = false ∨ (s.board b).outstanding = 0 ∨
       seq16 ≠ (s.seq - BitVec.ofNat 32 (s.board b).outstanding + 1).setWidth 16) →
     exec (.ack b seq16) s = .next (s.faultLinked b .ackOrder))

/-- (1) A copy is cut into consecutive parts of the board's capacity, every part but the last full, an empty copy
into one empty part; the parts are numbered from 0 and the last one is flagged (R135, R136, R137). (2) Every member
is sent its copy of a set, split by its capacity; its count rises, and its ack timer starts when it had nothing
outstanding (R132, R138, R144). A board that is no member is sent nothing. -/
def Obligations.CopiesAreCutAndSentToEveryMember : Prop :=
  (∀ (kind : SetKind) (seq : BitVec 32) (time c : Nat) (l : List (DomainNo × Level)), 0 < c →
     ∃ pieces : List (List (DomainNo × Level)),
       pieces ≠ [] ∧ pieces.flatten = l ∧
       (∀ i, i + 1 < pieces.length → (pieces.getD i []).length = c) ∧
       (pieces.getD (pieces.length - 1) []).length ≤ c ∧
       (l ≠ [] → pieces.getD (pieces.length - 1) [] ≠ []) ∧
       (copyFrames kind seq time c l).length = pieces.length ∧
       ∀ i, i < pieces.length → (copyFrames kind seq time c l)[i]? =
         some (.setPart ⟨kind, seq.setWidth 16, time, i, decide (i + 1 = pieces.length), pieces.getD i []⟩)) ∧
  (∀ (s : State) (kind : SetKind) (time : Nat) (entries : BoardNo → List (DomainNo × Level)),
     ∃ boards, s.deliver kind time entries = { s with boards := boards } ∧
     ∀ b : BoardNo,
       ((s.board b).member = false → boards[b] = s.board b) ∧
       (∀ c, (s.board b).member = true → (s.board b).capacity = some c →
         boards[b] = { s.board b with
           outstanding := (s.board b).outstanding + 1
           txQueue := (s.board b).txQueue ++ copyFrames kind s.seq time c.entries (entries b)
           ackTimer :=
             if (s.board b).outstanding = 0 then
               some ⟨s.clock, s.clock + (100 * (s.board b).ackBase + 4 * (s.board b).roundTrip)⟩
             else (s.board b).ackTimer }))

/-! Holds and stop requests -/

/-- HOLD: not taken in DOWN or TRAINING; in LINKED and FAULT checked in order, taken or refused, and answered with
the last sequence number (R150). -/
def Obligations.HoldsAreCheckedAndAnswered : Prop :=
  ∀ (s : State) (b : BoardNo) (cause : Byte),
    let e := s.board b
    let answer := fun (x : Board) (status : Status) =>
      s.setBoard b { x with txQueue := x.txQueue ++ [.holdAnswer cause status s.seq] }
    (e.link = .linked ∨ e.link = .fault → 3 < cause.toNat →
      exec (.hold b cause) s = .next (answer e .badParam)) ∧
    (e.link = .fault → cause.toNat ≤ 3 → exec (.hold b cause) s = .next (answer e .faulted)) ∧
    (e.link = .linked → cause.toNat ≤ 3 → e.member = false →
      exec (.hold b cause) s = .next (answer e .notMember)) ∧
    (e.link = .linked → cause.toNat ≤ 3 → e.member = true → Bits.has e.held cause.toNat = true →
      exec (.hold b cause) s = .next (answer e .already)) ∧
    (e.link = .linked → cause.toNat ≤ 3 → e.member = true → Bits.has e.held cause.toNat = false →
      exec (.hold b cause) s = .next (answer { e with
        held := Bits.add e.held cause.toNat
        holdsTaken := e.holdsTaken + 1
        holdTimer :=
          if e.held = 0 ∧ s.runState = .running ∧ e.holdLimit ≠ 0 then some (s.clock + 100000 * e.holdLimit)
          else e.holdTimer } .taken)) ∧
    (e.link = .down ∨ (∃ t, e.link = .training t) → exec (.hold b cause) s = .next s)

/-- RELEASE: checked in order, taken or refused, and answered with the last sequence number (R152). -/
def Obligations.ReleasesAreCheckedAndAnswered : Prop :=
  ∀ (s : State) (b : BoardNo) (cause : Byte),
    let e := s.board b
    let answer := fun (x : Board) (status : Status) =>
      s.setBoard b { x with txQueue := x.txQueue ++ [.holdAnswer cause status s.seq] }
    (e.link = .linked ∨ e.link = .fault → 3 < cause.toNat →
      exec (.release b cause) s = .next (answer e .badParam)) ∧
    (e.link = .fault → cause.toNat ≤ 3 → Bits.has e.timedOut cause.toNat = true →
      exec (.release b cause) s = .next (answer e .tooLate)) ∧
    (e.link = .fault → cause.toNat ≤ 3 → Bits.has e.timedOut cause.toNat = false →
      exec (.release b cause) s = .next (answer e .faulted)) ∧
    (e.link = .linked → cause.toNat ≤ 3 → e.member = false →
      exec (.release b cause) s = .next (answer e .notMember)) ∧
    (e.link = .linked → cause.toNat ≤ 3 → e.member = true → Bits.has e.held cause.toNat = false →
      exec (.release b cause) s = .next (answer e .notHeld)) ∧
    (e.link = .linked → cause.toNat ≤ 3 → e.member = true → Bits.has e.held cause.toNat = true →
      exec (.release b cause) s = .next (answer { e with
        held := Bits.remove e.held cause.toNat
        holdTimer := if Bits.remove e.held cause.toNat = 0 then none else e.holdTimer } .released))

/-- STOP frames: checked in order, and answered with the last sequence number; a STOP that is taken drains the run
with cause TRIGGER (R159). -/
def Obligations.StopFramesDrainTheRun : Prop :=
  ∀ (s : State) (b : BoardNo) (code : Byte),
    let answer := fun (t : State) (status : Status) => t.setBoard b { t.board b with
      txQueue := (t.board b).txQueue ++ [.stopAnswer code status s.seq] }
    let draining := { s with
      runState := .draining
      stopRecord := ⟨.trigger, some b, none, some code, s.time, s.seq⟩
      boards := holdTimersOff s }
    ((s.board b).link = .fault → exec (.stopFrame b code) s = .next (answer s .faulted)) ∧
    ((s.board b).link = .linked → (s.board b).member = false →
      exec (.stopFrame b code) s = .next (answer s .notMember)) ∧
    ((s.board b).link = .linked → (s.board b).member = true → s.runState ≠ .running →
      exec (.stopFrame b code) s = .next (answer s .notRunning)) ∧
    ((s.board b).link = .linked → (s.board b).member = true → s.runState = .running → ¬ membersClear s →
      exec (.stopFrame b code) s = .next (answer draining .stopping)) ∧
    ((s.board b).link = .linked → (s.board b).member = true → s.runState = .running → membersClear s →
      exec (.stopFrame b code) s = .next
        (answer { draining with runState := .stopped, events := { s.events with stopped := true } } .stopping))

/-! Request slots and grants -/

/-- A REQUEST from a LINKED board enters the EMPTY slot its tag names, which becomes WAITING; a slot that is WAITING
or REPLIED keeps what it holds and the board is answered SLOT_BUSY (R162). -/
def Obligations.RequestsEnterAnEmptySlot : Prop :=
  ∀ (s : State) (b : BoardNo) (tag : Tag) (kind : BitVec 7) (params : List Byte),
    (s.board b).link = .linked → params.length ≤ 17 →
    ((s.board b).slot tag = .empty →
      exec (.request b tag kind params) s = .next (s.setBoard b { s.board b with
        slots := (s.board b).slots.set tag (.waiting kind params) })) ∧
    ((s.board b).slot tag ≠ .empty →
      exec (.request b tag kind params) s = .next (s.setBoard b { s.board b with
        txQueue := (s.board b).txQueue ++ [.reply tag kind .slotBusy []] }))

/-- REPLY_SENT says that the last byte of the reply that occupies the slot has been sent: that slot becomes EMPTY
(R163). Frames are sent in their order, so the frames ahead of the reply have gone as well, and where the other
slot's reply is one of them that slot is EMPTY too (R122; log 19). A SLOT_BUSY reply occupies no slot. A REPLY_SENT
for a slot that is not REPLIED, or has no reply queued, changes nothing (log 8). -/
def Obligations.SentRepliesEmptyTheirSlot : Prop :=
  ∀ (s : State) (b : BoardNo) (tag : Tag),
    let repliesIn := fun (fs : List Frame) (u : Tag) =>
      ∃ kind status data, .reply u kind status data ∈ fs ∧ status ≠ .slotBusy
    (∀ ahead behind kind status data,
      (s.board b).slot tag = .replied → status ≠ .slotBusy →
      (s.board b).txQueue = ahead ++ .reply tag kind status data :: behind → ¬ repliesIn ahead tag →
      ∃ slots : Vector BoardSlot 2,
        exec (.replySent b tag) s = .next (s.setBoard b { s.board b with txQueue := behind, slots := slots }) ∧
        slots[tag] = .empty ∧
        ∀ u, u ≠ tag →
          (repliesIn ahead u → slots[u] = .empty) ∧ (¬ repliesIn ahead u → slots[u] = (s.board b).slot u)) ∧
    ((s.board b).slot tag ≠ .replied ∨ ¬ repliesIn (s.board b).txQueue tag → exec (.replySent b tag) s = .next s)

/-- (1) Which request is granted while the service slot is WAITING, and the escalation counter after (R166); a
board's grant is the one part (2) describes. (2) The board granted is the first with a WAITING slot from the pointer
on, wrapping from 63 to 0; its slot 0 goes first; the pointer becomes its number plus one (R167). -/
def Obligations.TheArbiterChoosesTheNextGrant : Prop :=
  (∀ (s : State) (code : Byte) (params : List Byte),
     (s.slot = .waiting code params → (∀ b, (s.board b).waitingTag = none) →
       s.nextGrant = some ⟨.service, code, params, s.pointer, 0⟩) ∧
     (s.slot = .waiting code params → (∃ b, (s.board b).waitingTag ≠ none) → s.escalation < s.escalationE →
       s.nextGrant = some ⟨.service, code, params, s.pointer, s.escalation + 1⟩) ∧
     (((∃ code params, s.slot = .waiting code params) → s.escalationE ≤ s.escalation) →
       (∃ b, (s.board b).waitingTag ≠ none) →
       ∃ b t, ∃ g : Grant, s.nextGrant = some g ∧ g.requester = .board b t ∧ g.escalation = 0) ∧
     ((∀ code params, s.slot ≠ .waiting code params) → (∀ b, (s.board b).waitingTag = none) → s.nextGrant = none)) ∧
  (∀ (s : State) (b : BoardNo) (kind0 kind1 : BitVec 7) (params0 params1 : List Byte) (k : Nat),
     k < 64 → b.val = (s.pointer.val + k) % 64 →
     (∀ c : BoardNo, ∀ j, j < k → c.val = (s.pointer.val + j) % 64 → (s.board c).waitingTag = none) →
     ((∃ code params, s.slot = .waiting code params) → s.escalationE ≤ s.escalation) →
     ((s.board b).slot 0 = .waiting kind0 params0 →
       s.nextGrant = some ⟨.board b 0, kind0.setWidth 8, params0, b + 1, 0⟩) ∧
     ((∀ kind params, (s.board b).slot 0 ≠ .waiting kind params) → (s.board b).slot 1 = .waiting kind1 params1 →
       s.nextGrant = some ⟨.board b 1, kind1.setWidth 8, params1, b + 1, 0⟩))

/-- The reply of a granted request goes to the service slot, which becomes DONE, or to the board's link with its tag,
whose slot becomes REPLIED (R24, R165); a notice is queued behind it for each LINKED board of its set (R16, R62). -/
def Obligations.RepliesAndNoticesAreQueued : Prop :=
  ∀ (s : State) (g : Grant) (status : Status) (data : List Byte) (n : Notice) (dest : BoardSet),
    (g.requester = .service → s.putReply g status data = { s with slot := .done g.code status data }) ∧
    (∀ b t, g.requester = .board b t → s.putReply g status data = s.setBoard b { s.board b with
      slots := (s.board b).slots.set t .replied
      txQueue := (s.board b).txQueue ++ [.reply t (g.code.setWidth 7) status data] }) ∧
    ∃ boards, s.queueNotice n dest = { s with boards := boards } ∧
      ∀ b : BoardNo,
        ((s.board b).link = .linked ∧ Bits.has dest b = true →
          boards[b] = { s.board b with txQueue := (s.board b).txQueue ++ [.notice n] }) ∧
        (¬ ((s.board b).link = .linked ∧ Bits.has dest b = true) → boards[b] = s.board b)

/-! Record requests -/

/-- (1) A granted CREATE that passes every check allocates the lowest-numbered FREE record as a DEFINED primary or
companion, a companion's parent naming it from that instant, and answers with its number (R20, R25, R26). (2)
CREATE's refusals in R27's order: each is given when every earlier check passes, and changes no record (R23, R27).
(3) CREATE's parameters: their places, and step 1 of its checks, each value in its range, a stop count with one of
the three actions or neither, and the fields of the other kind ignored (R27, R184, R185). -/
def Obligations.CreateIsCheckedAndTaken : Prop :=
  (∀ (s : State) (g : Grant) (params : List Byte) (q : CreateParams) (d : DomainNo),
     NextRequest s g .create params → parseCreate params = some q →
     s.domain d = none → (∀ e, e.val < d.val → s.domain e ≠ none) →
     (∀ e r, s.domain e = some r → r.label ≠ q.label) →
     let record := fun (level : Level) =>
       (⟨q.label, g.requester.owner, q.source, level, 0, 0, q.stop, .defined, 0⟩ : Domain)
     (∀ p, q.source = .primary p →
       exec .create s = .next
         (granted s g (fun a => a.setDomain d (some (record p.park))) .ok [BitVec.ofNat 8 d.val] [])) ∧
     (∀ c parent p, q.source = .companion c → s.domain c.parent = some parent → parent.source = .primary p →
       p.companion = none →
       (∀ reason, parent.life ≠ .active (.pause reason)) → parent.life ≠ .active .retire →
       p.high + 2 * c.gap + 1 ≤ p.period →
       (∀ period high, parent.life = .active (.revisePrimary period high) → high + 2 * c.gap + 1 ≤ period) →
       exec .create s = .next (granted s g (fun a =>
         (a.setDomain c.parent (some { parent with source := .primary { p with companion := some d } })).setDomain d
           (some (record .low))) .ok [BitVec.ofNat 8 d.val] []))) ∧
  (∀ (s : State) (g : Grant) (params : List Byte), NextRequest s g .create params →
     let refused := fun (status : Status) => exec .create s = .next (granted s g id status [] [])
     (parseCreate params = none → refused .badParam) ∧
     ∀ q, parseCreate params = some q →
       ((∀ d, s.domain d ≠ none) → refused .tableFull) ∧
       ((∃ d, s.domain d = none) → (∃ d r, s.domain d = some r ∧ r.label = q.label) → refused .duplicate) ∧
       ∀ c, q.source = .companion c → (∃ d, s.domain d = none) →
         (∀ d r, s.domain d = some r → r.label ≠ q.label) →
         (s.domain c.parent = none → refused .noSuch) ∧
         ∀ parent, s.domain c.parent = some parent →
           ((∃ x, parent.source = .companion x) ∨ parent.companionNo ≠ none → refused .wrongState) ∧
           ∀ p, parent.source = .primary p → p.companion = none →
             (parent.stopping = true → refused .parentIdle) ∧
             (parent.stopping = false →
               p.period < p.high + 2 * c.gap + 1 ∨
                 (∃ period high, parent.life = .active (.revisePrimary period high) ∧
                   period < high + 2 * c.gap + 1) →
               refused .gap)) ∧
  ((∀ params : List Byte, params.length ≠ 17 → parseCreate params = none) ∧
   ∀ l1 l2 kind p1 p2 h1 h2 f1 f2 park parent gap action c1 c2 c3 c4 : Byte,
     let read := parseCreate [l1, l2, kind, p1, p2, h1, h2, f1, f2, park, parent, gap, action, c1, c2, c3, c4]
     let label := l1.toNat * 256 + l2.toNat
     let period := p1.toNat * 256 + p2.toNat
     let high := h1.toNat * 256 + h2.toNat
     let phase := f1.toNat * 256 + f2.toNat
     let count := ((c1.toNat * 256 + c2.toNat) * 256 + c3.toNat) * 256 + c4.toNat
     let common := label ≠ 0 ∧ (action = 0x00#8 ∧ count = 0 ∨ 1 ≤ action.toNat ∧ action.toNat ≤ 3 ∧ 0 < count)
     let primary := 2 ≤ period ∧ 1 ≤ high ∧ high < period ∧ phase < period ∧ park.toNat ≤ 1
     let stop : Option StopSetting :=
       if action = 0x01#8 then some ⟨count, .pauseDomain⟩
       else if action = 0x02#8 then some ⟨count, .stopCabinet⟩
       else if action = 0x03#8 then some ⟨count, .notify⟩
       else none
     (kind = 0x00#8 → common → primary →
       read = some ⟨label, .primary ⟨period, high, phase, if park = 0x01#8 then .high else .low, none⟩, stop⟩) ∧
     (∀ d : DomainNo, kind = 0x01#8 → common → parent.toNat = d.val → 1 ≤ gap.toNat →
       read = some ⟨label, .companion ⟨d, gap.toNat⟩, stop⟩) ∧
     (¬ common ∨ kind = 0x00#8 ∧ ¬ primary ∨ kind = 0x01#8 ∧ (48 ≤ parent.toNat ∨ gap = 0x00#8) ∨ 2 ≤ kind.toNat →
       read = none))

/-- (1) FIND answers the number of the record that holds the label, NOT_FOUND when none does, and BAD_PARAM for label
0 or parameters of another length (R29). (2) LOOKUP answers the snapshot of a non-FREE record to any requester,
NO_SUCH for a FREE one, BAD_PARAM for a number above 47 or parameters of another length (R23, R30, R185). (3) LIST
and LIST FROM walk the table for the service from the cursor (R31, R32). From a board they are DENIED (R22, R165), or
BAD_PARAM when their parameters have another length (R162, R185; that a starting number above 47 does not change this
is log 13). LIST FROM is BAD_PARAM for a starting number above 47 or another length, and the cursor stands (R32). -/
def Obligations.QueriesAnswerFromTheTable : Prop :=
  (∀ (s : State) (g : Grant) (params : List Byte), NextRequest s g .find params →
     (∀ l1 l2 d r, params = [l1, l2] → l1.toNat * 256 + l2.toNat ≠ 0 → s.domain d = some r →
       r.label = l1.toNat * 256 + l2.toNat →
       (∀ e q, s.domain e = some q → q.label = r.label → e = d) →
       exec .find s = .next (granted s g id .ok [BitVec.ofNat 8 d.val] [])) ∧
     (∀ l1 l2, params = [l1, l2] → l1.toNat * 256 + l2.toNat ≠ 0 →
       (∀ e q, s.domain e = some q → q.label ≠ l1.toNat * 256 + l2.toNat) →
       exec .find s = .next (granted s g id .notFound [] [])) ∧
     (params.length ≠ 2 ∨ params = [0x00#8, 0x00#8] →
       exec .find s = .next (granted s g id .badParam [] []))) ∧
  (∀ (s : State) (g : Grant),
    (∀ params, NextRequest s g .lookup params → params.length ≠ 1 →
      exec .lookup s = .next (granted s g id .badParam [] [])) ∧
    ∀ x : Byte, NextRequest s g .lookup [x] →
     (∀ d r, x.toNat = d.val → s.domain d = some r →
       exec .lookup s = .next (granted s g id .ok (s.snapshot g.requester.owner d r) [])) ∧
     (∀ d : DomainNo, x.toNat = d.val → s.domain d = none →
       exec .lookup s = .next (granted s g id .noSuch [] [])) ∧
     (48 ≤ x.toNat → exec .lookup s = .next (granted s g id .badParam [] []))) ∧
  (∀ (s : State) (g : Grant) (params : List Byte),
     (∀ c start,
       (NextRequest s g .list params ∧ c = Instr.list ∧ start = s.listCursor ∨
         NextRequest s g .listFrom params ∧ c = .listFrom ∧ ∃ x : Byte, params = [x] ∧ x.toNat < 48 ∧ start = x.toNat) →
       g.requester = .service →
       (∀ d r, s.domain d = some r → start ≤ d.val → (∀ e, start ≤ e.val → e.val < d.val → s.domain e = none) →
         exec c s =
           .next (granted s g (fun a => { a with listCursor := d.val + 1 }) .ok (s.snapshot .service d r) [])) ∧
       ((∀ e, start ≤ e.val → s.domain e = none) →
         exec c s = .next (granted s g (fun a => { a with listCursor := 0 }) .endOfList [] []))) ∧
     (∀ c k length, (c, k, length) ∈ [(Instr.list, RecordKind.list, 0), (.listFrom, .listFrom, 1)] →
       NextRequest s g k params → ∀ b t, g.requester = .board b t →
       (params.length = length → exec c s = .next (granted s g id .denied [] [])) ∧
       (params.length ≠ length → exec c s = .next (granted s g id .badParam [] []))) ∧
     (NextRequest s g .listFrom params →
       params.length ≠ 1 ∨ (g.requester = .service ∧ ∃ x, params = [x] ∧ 48 ≤ x.toNat) →
       exec .listFrom s = .next (granted s g id .badParam [] [])))

/-- ATTACH and DETACH of board `b`, named by the service or sent by the board itself: the subscriber set changes, the
reply carries the level and the last sequence number, and a notice goes to the board alone when the service acted;
ALREADY changes nothing (R16, R33, R34, R35). -/
def Obligations.SubscriptionsChangeAtTheTaking : Prop :=
  ∀ (s : State) (g : Grant) (x y : Byte) (d : DomainNo) (b : BoardNo) (r : Domain) (params : List Byte)
    (notices : Notice → List (Notice × BoardSet)),
    x.toNat = d.val → y.toNat = b.val → s.domain d = some r →
    (g.requester = .service ∧ params = [x, y] ∧ (notices = fun n => [(n, BitVec.twoPow 64 b.val)]) ∨
      (∃ t, g.requester = .board b t) ∧ params = [x] ∧ (notices = fun _ => [])) →
    let data := r.level.byte :: Bytes.be 4 s.seq.toNat
    (NextRequest s g .attach params →
      (Bits.has r.subscribers b = false →
        exec .attach s = .next (granted s g
          (fun a => a.setDomain d (some { r with subscribers := Bits.add r.subscribers b })) .ok data
          (notices (.attached d r.level s.seq)))) ∧
      (Bits.has r.subscribers b = true → exec .attach s = .next (granted s g id .already [] []))) ∧
    (NextRequest s g .detach params →
      (Bits.has r.subscribers b = true →
        exec .detach s = .next (granted s g
          (fun a => a.setDomain d (some { r with subscribers := Bits.remove r.subscribers b })) .ok data
          (notices (.detached d)))) ∧
      (Bits.has r.subscribers b = false → exec .detach s = .next (granted s g id .already [] [])))

/-- (1) START of a DEFINED record and RESUME of a PAUSED one: the record is ACTIVE with no pending change, its first
edge is in the calendar, START sets the count to 0, and the reply and the notice carry the first-edge time (R37, R38,
R54, R55). (2) START and RESUME are refused in any other state with WRONG_STATE, and for a companion whose parent is
not ACTIVE or is about to stop with PARENT_IDLE (R37, R54). -/
def Obligations.StartAndResumeAreCheckedAndTaken : Prop :=
  (∀ (s : State) (g : Grant) (x : Byte) (d : DomainNo) (r : Domain),
     x.toNat = d.val → s.domain d = some r → mayChange g r →
     (∀ c, r.source = .companion c → ∃ parent, s.domain c.parent = some parent ∧ parent.isActive = true ∧
       parent.stopping = false) →
     let edge := s.firstEdge d r
     (NextRequest s g .start [x] → r.life = .defined →
       exec .start s = .next (granted s g
         (fun a => (a.setDomain d (some { r with count := 0, life := .active .nothing })).insertEntry edge)
         .ok (Bytes.be 8 edge.time) [(.started d edge.time, r.subscribers)])) ∧
     (∀ reason, NextRequest s g .resume [x] → r.life = .paused reason →
       exec .resume s = .next (granted s g
         (fun a => (a.setDomain d (some { r with life := .active .nothing })).insertEntry edge)
         .ok (Bytes.be 8 edge.time) [(.resumed d edge.time, r.subscribers)]))) ∧
  (∀ (s : State) (g : Grant) (x : Byte) (d : DomainNo) (r : Domain),
     x.toNat = d.val → s.domain d = some r → mayChange g r →
     (NextRequest s g .start [x] → r.life ≠ .defined →
       exec .start s = .next (granted s g id .wrongState [] [])) ∧
     (NextRequest s g .resume [x] → (∀ reason, r.life ≠ .paused reason) →
       exec .resume s = .next (granted s g id .wrongState [] [])) ∧
     (∀ c parent, r.source = .companion c → s.domain c.parent = some parent →
       parent.isActive = false ∨ parent.stopping = true →
       (NextRequest s g .start [x] → r.life = .defined →
         exec .start s = .next (granted s g id .parentIdle [] [])) ∧
       (∀ reason, NextRequest s g .resume [x] → r.life = .paused reason →
         exec .resume s = .next (granted s g id .parentIdle [] []))))

/-- The first edge (R6, R10): a park-LOW primary's is the earliest RISE after now, a park-HIGH one's the earliest
FALL, and a companion's is the earliest RISE of its derived waveform that is a gap after now, or after the next edge
of a parent that is HIGH. -/
def Obligations.FirstEdgesAreTheEarliest : Prop :=
  ∀ (s : State) (d : DomainNo) (r : Domain),
    let earliest := fun (bound residue period time : Nat) =>
      bound ≤ time ∧ time % period = residue % period ∧
        ∀ u, bound ≤ u → u % period = residue % period → time ≤ u
    (∀ p, r.source = .primary p → 0 < p.period → p.park = .low → ∃ time,
      s.firstEdge d r = ⟨time, d, .rise⟩ ∧ earliest (s.time + 1) p.phase p.period time ∧
      time ≤ s.time + p.period) ∧
    (∀ p, r.source = .primary p → 0 < p.period → p.park = .high → ∃ time,
      s.firstEdge d r = ⟨time, d, .fall⟩ ∧ earliest (s.time + 1) (p.phase + p.high) p.period time ∧
      time ≤ s.time + p.period) ∧
    (∀ c parent p, r.source = .companion c → s.domain c.parent = some parent → parent.source = .primary p →
      0 < p.period → parent.level = .low → ∃ time,
      s.firstEdge d r = ⟨time, d, .rise⟩ ∧ earliest (s.time + c.gap) (p.phase + p.high + c.gap) p.period time) ∧
    (∀ c parent p e, r.source = .companion c → s.domain c.parent = some parent → parent.source = .primary p →
      0 < p.period → parent.level = .high → s.nextEdge c.parent = some e → ∃ time,
      s.firstEdge d r = ⟨time, d, .rise⟩ ∧ earliest (e.time + c.gap) (p.phase + p.high + c.gap) p.period time)

/-- (1) REVISE of a record that is not ACTIVE applies at once: the new values, the phase given or the old one
reduced, the generation moved up, and a REVISED notice after the reply (R13, R49, R62). The gap checks are R48's. (2)
REVISE's parameters: their places, and step 1 of its checks (R48, R184, R185). A value of 0 is not carried, and a
phase is carried where the phase-present byte is 1; the high time and the phase are checked against the period when
one is carried. (3) REVISE's refusals after access, in order, for a record in any state (R46, R47, R48): BAD_PARAM
for values that do not fit the record's kind, or a phase for an ACTIVE record; CONFLICT under a pending PAUSE or
RETIRE; GAP where the values would break the gap constraint of the pair, in force or pending on the other side. (4)
PAUSE, RETIRE and CANCEL of a record that is not ACTIVE, and the refusals of a primary's companion: a DEFINED or
PAUSED record retires at once (R28, R47, R56, R58). -/
def Obligations.StandingRecordsAreRevisedAndRetiredAtOnce : Prop :=
  (∀ (s : State) (g : Grant) (params : List Byte) (q : ReviseParams) (r : Domain),
     NextRequest s g .revise params → parseRevise params = some q → s.domain q.domain = some r → mayChange g r →
     r.isActive = false →
     (∀ p, r.source = .primary p → q.period ≠ 0 → q.high ≠ 0 → q.gap = 0 →
       (∀ c x, p.companion = some c → s.domain c = some x → q.high + 2 * x.gap + 1 ≤ q.period ∧
         ∀ gap, x.life = .active (.reviseCompanion gap) → q.high + 2 * gap + 1 ≤ q.period) →
       let phase := match q.phase with
         | some f => f
         | none => p.phase % q.period
       exec .revise s = .next (granted s g
         (fun a => a.setDomain q.domain (some { r with
           source := .primary { p with period := q.period, high := q.high, phase := phase }
           generation := r.generation + 1 }))
         .ok (Bytes.be 2 (r.generation + 1).toNat)
         [(.revised q.domain (r.generation + 1) q.period q.high phase 0, r.subscribers)])) ∧
     (∀ c parent p, r.source = .companion c → s.domain c.parent = some parent → parent.source = .primary p →
       c.parent ≠ q.domain → q.period = 0 → q.high = 0 → q.phase = none → q.gap ≠ 0 →
       p.high + 2 * q.gap + 1 ≤ p.period →
       (∀ period high, parent.life = .active (.revisePrimary period high) → high + 2 * q.gap + 1 ≤ period) →
       exec .revise s = .next (granted s g
         (fun a => a.setDomain q.domain (some { r with
           source := .companion { c with gap := q.gap }
           generation := r.generation + 1 }))
         .ok (Bytes.be 2 (r.generation + 1).toNat)
         [(.revised q.domain (r.generation + 1) p.period (p.period - p.high - 2 * q.gap)
           ((p.phase + p.high + q.gap) % p.period) q.gap, r.subscribers)]))) ∧
  ((∀ params : List Byte, params.length ≠ 9 → parseRevise params = none) ∧
   ∀ x p1 p2 h1 h2 present f1 f2 gap : Byte,
     let read := parseRevise [x, p1, p2, h1, h2, present, f1, f2, gap]
     let period := p1.toNat * 256 + p2.toNat
     let high := h1.toNat * 256 + h2.toNat
     let phase := f1.toNat * 256 + f2.toNat
     let inRange := present.toNat ≤ 1 ∧
       (period ≠ 0 → 2 ≤ period ∧ high < period ∧ (present.toNat = 1 → phase < period))
     (48 ≤ x.toNat ∨ ¬ inRange → read = none) ∧
     ∀ d : DomainNo, x.toNat = d.val → inRange →
       read = some ⟨d, period, high, if present = 0x01#8 then some phase else none, gap.toNat⟩) ∧
  (∀ (s : State) (g : Grant) (params : List Byte) (q : ReviseParams) (r : Domain),
     NextRequest s g .revise params → parseRevise params = some q → s.domain q.domain = some r → mayChange g r →
     let refused := fun (status : Status) => exec .revise s = .next (granted s g id status [] [])
     let stopping := (∃ reason, r.life = .active (.pause reason)) ∨ r.life = .active .retire
     (∀ p, r.source = .primary p →
       let fits := q.gap = 0 ∧ q.period ≠ 0 ∧ q.high ≠ 0 ∧ (r.isActive = true → q.phase = none)
       (¬ fits → refused .badParam) ∧
       (fits → stopping → refused .conflict) ∧
       ∀ c x, fits → ¬ stopping → p.companion = some c → s.domain c = some x →
         q.period < q.high + 2 * x.gap + 1 ∨
           (∃ gap, x.life = .active (.reviseCompanion gap) ∧ q.period < q.high + 2 * gap + 1) →
         refused .gap) ∧
     (∀ c, r.source = .companion c →
       let fits := q.gap ≠ 0 ∧ q.period = 0 ∧ q.high = 0 ∧ q.phase = none
       (¬ fits → refused .badParam) ∧
       (fits → stopping → refused .conflict) ∧
       ∀ parent p, fits → ¬ stopping → s.domain c.parent = some parent → parent.source = .primary p →
         p.period < p.high + 2 * q.gap + 1 ∨
           (∃ period high, parent.life = .active (.revisePrimary period high) ∧ period < high + 2 * q.gap + 1) →
         refused .gap)) ∧
  (∀ (s : State) (g : Grant) (x : Byte) (d : DomainNo) (r : Domain),
     x.toNat = d.val → s.domain d = some r → mayChange g r →
     (∀ p, NextRequest s g .retire [x] → r.isActive = false → r.source = .primary p → p.companion = none →
       exec .retire s = .next (granted s g (fun a => a.setDomain d none) .ok [] [(.retired d, r.subscribers)])) ∧
     (∀ c parent p, NextRequest s g .retire [x] → r.isActive = false → r.source = .companion c → c.parent ≠ d →
       s.domain c.parent = some parent → parent.source = .primary p →
       exec .retire s = .next (granted s g (fun a =>
         (a.setDomain c.parent (some { parent with source := .primary { p with companion := none } })).setDomain d none)
         .ok [] [(.retired d, r.subscribers)])) ∧
     (NextRequest s g .retire [x] → r.companionNo ≠ none →
       exec .retire s = .next (granted s g id .dependent [] [])) ∧
     (NextRequest s g .pause [x] → r.life = .defined →
       exec .pause s = .next (granted s g id .wrongState [] [])) ∧
     (∀ reason, NextRequest s g .pause [x] → r.life = .paused reason →
       exec .pause s = .next (granted s g id .already [] [])) ∧
     (NextRequest s g .pause [x] → r.isActive = true → s.companionActive r = true →
       exec .pause s = .next (granted s g id .dependent [] [])) ∧
     (NextRequest s g .cancel [x] → r.isActive = false →
       exec .cancel s = .next (granted s g id .already [] [])))

/-- (1) The slot table for an ACTIVE record (R46, R50, R52, R57, R58): what REVISE, PAUSE, RETIRE and CANCEL do with
each pending change, and their statuses. PAUSE is for a record with no ACTIVE companion and RETIRE for one with no
companion (R47); REVISE is one that fits the record and its pair (R48). (2) What REVISE asks of a record, and what it
leaves pending: the fields that fit its kind, the gap constraint against the other record of the pair with its
pending values, and the new values of R50 (R8, R48, R50). -/
def Obligations.ThePendingSlotDecidesChangeRequests : Prop :=
  (∀ (s : State) (g : Grant) (x : Byte) (d : DomainNo) (r : Domain) (pending : Pending),
     x.toNat = d.val → s.domain d = some r → mayChange g r → r.life = .active pending →
     let slot := fun (p : Pending) (a : State) => a.setDomain d (some { r with life := .active p })
     let revising := (∃ period high, pending = .revisePrimary period high) ∨ ∃ gap, pending = .reviseCompanion gap
     let pausing := ∃ reason, pending = .pause reason
     (NextRequest s g .pause [x] → s.companionActive r = false →
       (pending = .nothing → exec .pause s = .next (granted s g (slot (.pause .requested)) .ok [] [])) ∧
       (pausing → exec .pause s = .next (granted s g id .already [] [])) ∧
       (revising ∨ pending = .retire → exec .pause s = .next (granted s g id .conflict [] []))) ∧
     (NextRequest s g .retire [x] → r.companionNo = none →
       (pending = .nothing → exec .retire s = .next (granted s g (slot .retire) .ok [] [])) ∧
       (revising ∨ pausing → exec .retire s = .next (granted s g (slot .retire) .upgraded [] [])) ∧
       (pending = .retire → exec .retire s = .next (granted s g id .already [] []))) ∧
     (NextRequest s g .cancel [x] →
       (pending = .nothing → exec .cancel s = .next (granted s g id .already [] [])) ∧
       (revising ∨ pausing → exec .cancel s = .next (granted s g (slot .nothing) .ok [] [])) ∧
       (pending = .retire → exec .cancel s = .next (granted s g id .conflict [] []))) ∧
     (∀ params q, NextRequest s g .revise params → parseRevise params = some q → q.domain = d → q.fits r = true →
       (pausing ∨ pending = .retire → exec .revise s = .next (granted s g id .conflict [] [])) ∧
       (s.reviseGapOk q r = false → ¬ (pausing ∨ pending = .retire) →
         exec .revise s = .next (granted s g id .gap [] [])) ∧
       (s.reviseGapOk q r = true →
         (pending = .nothing → exec .revise s = .next (granted s g (slot (q.pending r)) .ok [] [])) ∧
         (revising → exec .revise s = .next (granted s g (slot (q.pending r)) .replaced [] []))))) ∧
  (∀ (s : State) (q : ReviseParams) (r : Domain),
     (∀ p, r.source = .primary p →
       (q.fits r = true ↔ q.gap = 0 ∧ q.period ≠ 0 ∧ q.high ≠ 0 ∧ (r.isActive = true → q.phase = none)) ∧
       q.pending r = .revisePrimary q.period q.high ∧
       (s.reviseGapOk q r = true ↔ ∀ c x, p.companion = some c → s.domain c = some x →
         q.high + 2 * x.gap + 1 ≤ q.period ∧
         ∀ gap, x.life = .active (.reviseCompanion gap) → q.high + 2 * gap + 1 ≤ q.period)) ∧
     (∀ c, r.source = .companion c →
       (q.fits r = true ↔ q.gap ≠ 0 ∧ q.period = 0 ∧ q.high = 0 ∧ q.phase = none) ∧
       q.pending r = .reviseCompanion q.gap ∧
       ∀ parent p, s.domain c.parent = some parent → parent.source = .primary p →
         (s.reviseGapOk q r = true ↔ p.high + 2 * q.gap + 1 ≤ p.period ∧
           ∀ period high, parent.life = .active (.revisePrimary period high) → high + 2 * q.gap + 1 ≤ period)))

/-- SET STOP replaces the stop setting of a non-FREE record at once and keeps every other field; a count without an
action, an action without a count and an unknown action are BAD_PARAM, then come NO_SUCH and DENIED (R42). The action
codes are those of R185. -/
def Obligations.SetStopReplacesTheStopSetting : Prop :=
  ∀ (s : State) (g : Grant) (params : List Byte), NextRequest s g .setStop params →
    let refused := fun (status : Status) => exec .setStop s = .next (granted s g id status [] [])
    (params.length ≠ 6 → refused .badParam) ∧
    ∀ x action c1 c2 c3 c4 : Byte, params = [x, action, c1, c2, c3, c4] →
      let count := ((c1.toNat * 256 + c2.toNat) * 256 + c3.toNat) * 256 + c4.toNat
      let valid := action = 0x00#8 ∧ count = 0 ∨ 1 ≤ action.toNat ∧ action.toNat ≤ 3 ∧ 0 < count
      (¬ valid ∨ 48 ≤ x.toNat → refused .badParam) ∧
      ∀ d : DomainNo, x.toNat = d.val → valid →
        (s.domain d = none → refused .noSuch) ∧
        ∀ r, s.domain d = some r →
          (¬ mayChange g r → refused .denied) ∧
          (mayChange g r →
            let set := fun (stop : Option StopSetting) => exec .setStop s =
              .next (granted s g (fun a => a.setDomain d (some { r with stop := stop })) .ok [] [])
            (action = 0x00#8 → set none) ∧
            (action = 0x01#8 → set (some ⟨count, .pauseDomain⟩)) ∧
            (action = 0x02#8 → set (some ⟨count, .stopCabinet⟩)) ∧
            (action = 0x03#8 → set (some ⟨count, .notify⟩)))

/-- The checks that every request that names one domain begins with, in order (R22, R23): BAD_PARAM, NO_SUCH, and
DENIED to a board that is not the owner. START, RESUME, PAUSE, RETIRE and CANCEL carry the number alone. ATTACH and
DETACH carry a board number as well when they come from the service, which must be 0 to 63, and are open to every
requester (R33, R34, R184); REVISE carries its values, each in its range when it is carried (R48, R185). A kind the
table does not know is BAD_PARAM (R165). LOOKUP and SET STOP have statements of their own. -/
def Obligations.RequestsAreCheckedInOrder : Prop :=
  ∀ (s : State) (g : Grant),
    (∀ k c, (k, c) ∈ [(RecordKind.start, Instr.start), (.resume, .resume), (.pause, .pause), (.retire, .retire),
        (.cancel, .cancel)] →
      (∀ params, NextRequest s g k params → params.length ≠ 1 →
        exec c s = .next (granted s g id .badParam [] [])) ∧
      ∀ x : Byte, NextRequest s g k [x] →
        (48 ≤ x.toNat → exec c s = .next (granted s g id .badParam [] [])) ∧
        (∀ d : DomainNo, x.toNat = d.val → s.domain d = none →
          exec c s = .next (granted s g id .noSuch [] [])) ∧
        (∀ d r, x.toNat = d.val → s.domain d = some r → ¬ mayChange g r →
          exec c s = .next (granted s g id .denied [] []))) ∧
    (∀ k c, (k, c) ∈ [(RecordKind.attach, Instr.attach), (.detach, .detach)] →
      (∀ params, NextRequest s g k params →
        params.length ≠ (if g.requester = .service then 2 else 1) →
        exec c s = .next (granted s g id .badParam [] [])) ∧
      (∀ x y : Byte, NextRequest s g k [x, y] → g.requester = .service →
        (48 ≤ x.toNat ∨ 64 ≤ y.toNat → exec c s = .next (granted s g id .badParam [] [])) ∧
        (∀ d : DomainNo, x.toNat = d.val → y.toNat < 64 → s.domain d = none →
          exec c s = .next (granted s g id .noSuch [] []))) ∧
      (∀ x : Byte, NextRequest s g k [x] → g.requester ≠ .service →
        (48 ≤ x.toNat → exec c s = .next (granted s g id .badParam [] [])) ∧
        (∀ d : DomainNo, x.toNat = d.val → s.domain d = none →
          exec c s = .next (granted s g id .noSuch [] [])))) ∧
    (∀ params, NextRequest s g .revise params →
      (params.length ≠ 9 → exec .revise s = .next (granted s g id .badParam [] [])) ∧
      ∀ x p1 p2 h1 h2 present f1 f2 gap : Byte, params = [x, p1, p2, h1, h2, present, f1, f2, gap] →
        let period := p1.toNat * 256 + p2.toNat
        let high := h1.toNat * 256 + h2.toNat
        let phase := f1.toNat * 256 + f2.toNat
        let inRange := present.toNat ≤ 1 ∧
          (period ≠ 0 → 2 ≤ period ∧ high < period ∧ (present.toNat = 1 → phase < period))
        (48 ≤ x.toNat ∨ ¬ inRange → exec .revise s = .next (granted s g id .badParam [] [])) ∧
        ∀ d : DomainNo, x.toNat = d.val → inRange →
          (s.domain d = none → exec .revise s = .next (granted s g id .noSuch [] [])) ∧
          ∀ r, s.domain d = some r → ¬ mayChange g r →
            exec .revise s = .next (granted s g id .denied [] [])) ∧
    (s.nextGrant = some g → RecordKind.ofCode g.code = none →
      exec .unknownRequestKind s = .next (granted s g id .badParam [] []))

/-! The advance -/

/-- (1) An advance that passes its limit checks issues one set: the number moves on by one, emulation time becomes
the head time, and every member is sent its copy, the entries whose subscriber set held it, counted as outstanding
(R74, R75, R81, R82, R132, R133, R138, R144). On every link the parts join first and then the notices for that board,
in their order, while it is LINKED (R62, R63, R82, R147). The records, the calendar and the pending events are those
the processing of the head group leaves, with STOPPED beside them where the run drains with nothing outstanding,
which needs a cabinet without members. Every board entry keeps its other fields, but for a hold timer, which is
disarmed when the run leaves RUNNING (R154). Records outside the head group and its pairs are untouched (R70, R77).
(2) The processing of the head group (R67, R70, R75, R77): the entries at the head time are taken out together, and
their edges are processed one whole edge after another, in ascending domain number. -/
def Obligations.AnAdvanceIssuesOneSet : Prop :=
  (∀ (s : State) (x : Entry) (rest : List Entry),
     s.advanceCondition = true → s.calendar = x :: rest → x.time < 2 ^ 48 →
     (∀ limit, s.budget = .untilTime limit → x.time ≤ limit) →
     let w := s.processGroup x.time
     let copy := fun (b : BoardNo) => copyFrames .edge (s.seq + 1) x.time (s.board b).partSize
       ((w.entries.filter fun e => Bits.has e.subscribers b).map fun e => (e.domain, e.level))
     let notices := fun (b : BoardNo) =>
       if (s.board b).link = .linked then (w.notices.filter fun n => Bits.has n.2 b).map fun n => Frame.notice n.1
       else []
     ∃ t, exec .advance s = .next t ∧
       t.time = x.time ∧ t.seq = s.seq + 1 ∧
       t.records = w.state.records ∧ t.calendar = w.state.calendar ∧
       t.events = { w.state.events with stopped := t.events.stopped } ∧
       ((∃ b, (s.board b).member = true) → t.events = w.state.events) ∧
       (∀ b : BoardNo,
         ((s.board b).member = true → t.board b = { s.board b with
           outstanding := (s.board b).outstanding + 1
           ackTimer :=
             if (s.board b).outstanding = 0 then
               some ⟨s.clock, s.clock + (100 * (s.board b).ackBase + 4 * (s.board b).roundTrip)⟩
             else (s.board b).ackTimer
           holdTimer := if t.runState = .running then (s.board b).holdTimer else none
           txQueue := (s.board b).txQueue ++ copy b ++ notices b }) ∧
         ((s.board b).member = false → t.board b = { s.board b with
           holdTimer := if t.runState = .running then (s.board b).holdTimer else none
           txQueue := (s.board b).txQueue ++ notices b })) ∧
       (∀ (d : DomainNo), (∀ y ∈ s.calendar, y.time = x.time → y.domain ≠ d ∧
           ∀ r, s.domain y.domain = some r → r.companionNo ≠ some d ∧ ∀ c, r.source = .companion c → c.parent ≠ d) →
         t.domain d = s.domain d) ∧
       t.slot = s.slot ∧ t.pointer = s.pointer ∧ t.escalation = s.escalation ∧ t.mask = s.mask ∧
       t.listCursor = s.listCursor ∧ t.filterK = s.filterK ∧ t.escalationE = s.escalationE ∧
       t.furtherFaults = s.furtherFaults ∧ t.phase = s.phase ∧ t.clock = s.clock ∧ t.haltAsserted = s.haltAsserted ∧
       t.frame = s.frame ∧ t.sdo = s.sdo ∧ t.freeCount = s.freeCount) ∧
  (∀ (s : State) (x : Entry) (rest : List Entry),
     s.calendar = x :: rest → (s.calendar.Pairwise fun y z => y.before z = true) →
     ∃ group later : List Entry,
       s.calendar = group ++ later ∧ (∀ y ∈ group, y.time = x.time) ∧ (∀ y ∈ later, x.time < y.time) ∧
       (group.Pairwise fun y z => y.domain.val < z.domain.val) ∧
       s.processGroup x.time = group.foldl (Advance.edge x.time) ⟨{ s with calendar := later }, [], [], []⟩)

/-- (1) The stops at the end of an advance, in their order (R83, R84, R85, R86): a breakpoint, then the end of a SETS
budget, then an empty calendar; the first that finds the run RUNNING is recorded. (2) A head time beyond the range,
or beyond an UNTIL limit, issues nothing: the run drains with its cause and everything else stands (R76, R98). -/
def Obligations.TheAdvanceStopsForOneCause : Prop :=
  (∀ (s : State) (x : Entry) (rest : List Entry),
     s.advanceCondition = true → s.anyMember = true → s.calendar = x :: rest → x.time < 2 ^ 48 →
     (∀ limit, s.budget = .untilTime limit → x.time ≤ limit) →
     ∃ t, exec .advance s = .next t ∧
       let record := fun (cause : StopCause) (domain : Option DomainNo) =>
         t.runState = .draining ∧ t.stopRecord = ⟨cause, none, domain, none, x.time, s.seq + 1⟩
       let breakpoints := (s.processGroup x.time).breakpoints
       (∀ n, s.budget = .sets n → t.budget = .sets (n - 1)) ∧
       ((∀ n, s.budget ≠ .sets n) → t.budget = s.budget) ∧
       (∀ d ds, breakpoints = d :: ds → record .breakpoint (some d)) ∧
       (breakpoints = [] → ∀ n, s.budget = .sets n → n ≤ 1 → record .budget none) ∧
       (breakpoints = [] → (∀ n, s.budget = .sets n → 1 < n) → t.calendar = [] → record .noEdges none) ∧
       (breakpoints = [] → (∀ n, s.budget = .sets n → 1 < n) → t.calendar ≠ [] →
         t.runState = .running ∧ t.stopRecord = s.stopRecord)) ∧
  (∀ (s : State) (x : Entry) (rest : List Entry) (cause : StopCause),
     s.advanceCondition = true → s.calendar = x :: rest →
     (2 ^ 48 ≤ x.time ∧ cause = .timeLimit ∨
       x.time < 2 ^ 48 ∧ (∃ limit, s.budget = .untilTime limit ∧ limit < x.time) ∧ cause = .budget) →
     let stopping := { s with
       stopRecord := ⟨cause, none, none, none, s.time, s.seq⟩
       boards := holdTimersOff s }
     (¬ membersClear s → exec .advance s = .next { stopping with runState := .draining }) ∧
     (membersClear s → exec .advance s = .next { stopping with
       runState := .stopped
       events := { s.events with stopped := true } }))

/-- An advance is taken only while its condition holds: the run is RUNNING, the calendar is not empty, and every
member is LINKED, holds no cause and is below its window (R90). -/
def Obligations.NoAdvanceWithoutItsCondition : Prop :=
  ∀ s : State,
    (s.advanceCondition = true ↔
      s.runState = .running ∧ s.calendar ≠ [] ∧ ∀ b, (s.board b).member = true →
        (s.board b).link = .linked ∧ (s.board b).held = 0 ∧ (s.board b).outstanding < (s.board b).window) ∧
    (s.advanceCondition = false → exec .advance s = .next s)

/-- (1) One edge of a domain with no pending change, no stop setting and no ACTIVE companion: the level of the edge,
the count of a RISE, the entry of the set, and the next edge by R4 for a primary and R9 for a companion (R40, R70,
R78, R81). (2) The five steps of one edge, for a record in any state (R4, R9, R70, R77, R78, R81): the level and the
entry of the set; the revision and the count, at a RISE alone; and the completion, or the next edge. The next edge is
inserted in every case but that of a pending PAUSE or RETIRE at an edge that reaches the park level, whatever change
is pending. -/
def Obligations.EdgesToggleAndScheduleTheNext : Prop :=
  (∀ (w : Advance) (t : Nat) (d : DomainNo) (r : Domain),
     w.state.domain d = some r → r.life = .active .nothing → r.stop = none → w.state.companionActive r = false →
     let risen := { r with level := .high, count := min (2 ^ 32 - 1) (r.count + 1) }
     let fallen := { r with level := .low }
     let after := fun (x : Domain) (next : Entry) => ({ w with
       state := (w.state.setDomain d (some x)).insertEntry next
       entries := w.entries ++ [⟨d, x.level, r.subscribers⟩] } : Advance)
     (∀ p, r.source = .primary p →
       w.edge t ⟨t, d, .rise⟩ = after risen ⟨t + p.high, d, .fall⟩ ∧
       w.edge t ⟨t, d, .fall⟩ = after fallen ⟨t + p.period - p.high, d, .rise⟩) ∧
     (∀ c parent p, r.source = .companion c → c.parent ≠ d → w.state.domain c.parent = some parent →
       parent.source = .primary p →
       w.edge t ⟨t, d, .rise⟩ = after risen ⟨t + (p.period - p.high - 2 * c.gap), d, .fall⟩ ∧
       w.edge t ⟨t, d, .fall⟩ = after fallen ⟨t + p.high + 2 * c.gap, d, .rise⟩)) ∧
  (∀ (w : Advance) (t time : Nat) (d : DomainNo) (r : Domain),
     w.edge t ⟨time, d, .rise⟩ = (((w.level d .rise).revision d t).count d).finish d .rise t ∧
     w.edge t ⟨time, d, .fall⟩ = (w.level d .fall).finish d .fall t ∧
     (w.state.domain d = some r →
       (∀ kind level, (kind, level) ∈ [(EdgeKind.rise, Level.high), (.fall, .low)] →
         w.level d kind = { w with
           state := w.state.setDomain d (some { r with level := level })
           entries := w.entries ++ [⟨d, level, r.subscribers⟩] } ∧
         (level ≠ r.park ∨ (∀ reason, r.life ≠ .active (.pause reason)) ∧ r.life ≠ .active .retire →
           (∀ p, r.source = .primary p → w.finish d kind t = { w with state := w.state.insertEntry (match kind with
             | .rise => ⟨t + p.high, d, .fall⟩
             | .fall => ⟨t + p.period - p.high, d, .rise⟩) }) ∧
           (∀ c parent p, r.source = .companion c → w.state.domain c.parent = some parent →
             parent.source = .primary p → w.finish d kind t = { w with state := w.state.insertEntry (match kind with
               | .rise => ⟨t + (p.period - p.high - 2 * c.gap), d, .fall⟩
               | .fall => ⟨t + p.high + 2 * c.gap, d, .rise⟩) })))))

/-- (1) A primary's pending revision applies at its RISE, which is the first of the new waveform, and re-keys its
ACTIVE companion, whose own pending gap applies at the same edge (R11, R12, R51, R63, R71). (2) The revision step of
a RISE, for a record in any state (R11, R12, R51, R62, R63, R71, R78): a companion's own RISE applies none; a
primary's pending REVISE applies, with the phase of this edge; then an ACTIVE companion is settled: its pending gap
applies, and its entry is re-keyed when either revision applied and left where it is when neither did. The
companion's REVISED stands after its parent's. -/
def Obligations.RevisionsApplyAtTheRise : Prop :=
  (∀ (w : Advance) (t : Nat) (d : DomainNo) (r : Domain) (p : Primary) (period high : Nat),
     w.state.domain d = some r → r.source = .primary p → r.life = .active (.revisePrimary period high) → r.stop = none →
     let risen := { r with
       source := .primary { p with period := period, high := high, phase := t % period }
       level := .high
       generation := r.generation + 1
       count := min (2 ^ 32 - 1) (r.count + 1)
       life := .active .nothing }
     let notice := (Notice.revised d (r.generation + 1) period high (t % period) 0, r.subscribers)
     let entries := w.entries ++ [⟨d, .high, r.subscribers⟩]
     (p.companion = none →
       w.edge t ⟨t, d, .rise⟩ = { w with
         state := (w.state.setDomain d (some risen)).insertEntry ⟨t + high, d, .fall⟩
         entries := entries
         notices := w.notices ++ [notice] }) ∧
     (∀ c x g, p.companion = some c → c ≠ d → w.state.domain c = some x → x.source = .companion ⟨d, g⟩ →
       (x.life = .active .nothing →
         w.edge t ⟨t, d, .rise⟩ = { w with
           state := ((w.state.setDomain d (some risen)).rekey ⟨t + high + g, c, .rise⟩).insertEntry
             ⟨t + high, d, .fall⟩
           entries := entries
           notices := w.notices ++ [notice] }) ∧
       (∀ gap, x.life = .active (.reviseCompanion gap) →
         w.edge t ⟨t, d, .rise⟩ = { w with
           state := (((w.state.setDomain c (some { x with
             source := .companion ⟨d, gap⟩
             generation := x.generation + 1
             life := .active .nothing })).setDomain d (some risen)).rekey ⟨t + high + gap, c, .rise⟩).insertEntry
               ⟨t + high, d, .fall⟩
           entries := entries
           notices := w.notices ++ [notice, (.revised c (x.generation + 1) period (period - high - 2 * gap)
             ((t % period + high + gap) % period) gap, x.subscribers)] }))) ∧
  (∀ (w : Advance) (t : Nat) (d : DomainNo) (r : Domain), w.state.domain d = some r →
     (∀ c, r.source = .companion c → w.revision d t = w) ∧
     ∀ p, r.source = .primary p →
       let own := fun (period high : Nat) => ({ w with
         state := w.state.setDomain d (some { r with
           source := .primary { p with period := period, high := high, phase := t % period }
           generation := r.generation + 1
           life := .active .nothing })
         notices := w.notices ++
           [(.revised d (r.generation + 1) period high (t % period) 0, r.subscribers)] } : Advance)
       let settled := fun (v : Advance) (c : DomainNo) (x : Domain) (period high phase gap : Nat) => ({ v with
         state := (v.state.setDomain c (some { x with
           source := .companion ⟨d, gap⟩
           generation := x.generation + 1
           life := .active .nothing })).rekey ⟨t + high + gap, c, .rise⟩
         notices := v.notices ++ [(.revised c (x.generation + 1) period (period - high - 2 * gap)
           ((phase + high + gap) % period) gap, x.subscribers)] } : Advance)
       let alone := ∀ c x, p.companion = some c → w.state.domain c = some x → x.isActive = false
       ((∀ period high, r.life ≠ .active (.revisePrimary period high)) →
         (alone → w.revision d t = w) ∧
         ∀ c x g, p.companion = some c → c ≠ d → w.state.domain c = some x → x.source = .companion ⟨d, g⟩ →
           ((∀ gap, x.life ≠ .active (.reviseCompanion gap)) → w.revision d t = w) ∧
           (∀ gap, x.life = .active (.reviseCompanion gap) →
             w.revision d t = settled w c x p.period p.high p.phase gap)) ∧
       (∀ period high, r.life = .active (.revisePrimary period high) →
         (alone → w.revision d t = own period high) ∧
         ∀ c x g, p.companion = some c → c ≠ d → w.state.domain c = some x → x.source = .companion ⟨d, g⟩ →
           x.isActive = true →
           ((∀ gap, x.life ≠ .active (.reviseCompanion gap)) →
             w.revision d t = { own period high with
               state := (own period high).state.rekey ⟨t + high + g, c, .rise⟩ }) ∧
           (∀ gap, x.life = .active (.reviseCompanion gap) →
             w.revision d t = settled (own period high) c x period high (t % period) gap)))

/-- (1) A pending PAUSE or RETIRE completes at the park-reaching edge: the edge is in the set, no next edge is
inserted, and the notice goes to the subscribers (R53, R57, R62, R78, R79). (2) The stop actions at the RISE that
brings a primary's count to its stop count (R41, R61, R78): COUNT(d) is raised, STOP_CABINET notes the breakpoint,
and PAUSE_DOMAIN installs a pause of reason COUNT, which a park-HIGH domain completes at that same edge. (3) The
count, the stop count and the completion, for a record in any state (R28, R40, R41, R53, R57, R61, R62, R78, R79): a
stop count that is reached raises COUNT(d), and PAUSE_DOMAIN installs its pause only where the slot is NONE and no
ACTIVE companion hangs on the record; a pending change and a companion's record count alike. At an edge that reaches
the park level a pending PAUSE or RETIRE completes, and the parent of a companion that retires loses its companion
field. -/
def Obligations.PendingStopsCompleteAndStopCountsAct : Prop :=
  (∀ (w : Advance) (t : Nat) (d : DomainNo) (r : Domain) (p : Primary) (reason : PauseReason),
     w.state.domain d = some r → r.source = .primary p → p.companion = none → r.stop = none →
     let low := { r with level := .low }
     let high := { r with level := .high, count := min (2 ^ 32 - 1) (r.count + 1) }
     (p.park = .low → r.life = .active (.pause reason) → w.edge t ⟨t, d, .fall⟩ = { w with
       state := w.state.setDomain d (some { low with life := .paused reason })
       entries := w.entries ++ [⟨d, .low, r.subscribers⟩]
       notices := w.notices ++ [(.paused d reason, r.subscribers)] }) ∧
     (p.park = .high → r.life = .active (.pause reason) → w.edge t ⟨t, d, .rise⟩ = { w with
       state := w.state.setDomain d (some { high with life := .paused reason })
       entries := w.entries ++ [⟨d, .high, r.subscribers⟩]
       notices := w.notices ++ [(.paused d reason, r.subscribers)] }) ∧
     (p.park = .low → r.life = .active .retire → w.edge t ⟨t, d, .fall⟩ = { w with
       state := w.state.setDomain d none
       entries := w.entries ++ [⟨d, .low, r.subscribers⟩]
       notices := w.notices ++ [(.retired d, r.subscribers)] }) ∧
     (p.park = .high → r.life = .active .retire → w.edge t ⟨t, d, .rise⟩ = { w with
       state := w.state.setDomain d none
       entries := w.entries ++ [⟨d, .high, r.subscribers⟩]
       notices := w.notices ++ [(.retired d, r.subscribers)] })) ∧
  (∀ (w : Advance) (t : Nat) (d : DomainNo) (r : Domain) (p : Primary) (stop : StopSetting),
     w.state.domain d = some r → r.source = .primary p → p.companion = none → r.life = .active .nothing →
     r.stop = some stop → r.count + 1 = stop.count → stop.count < 2 ^ 32 →
     let risen := { r with level := .high, count := stop.count }
     let raised := fun (a : State) => { a with events := { a.events with count := Bits.add a.events.count d } }
     let entries := w.entries ++ [⟨d, .high, r.subscribers⟩]
     let next : Entry := ⟨t + p.high, d, .fall⟩
     (stop.action = .notify → w.edge t ⟨t, d, .rise⟩ = { w with
       state := (raised (w.state.setDomain d (some risen))).insertEntry next
       entries := entries }) ∧
     (stop.action = .stopCabinet → w.edge t ⟨t, d, .rise⟩ = { w with
       state := (raised (w.state.setDomain d (some risen))).insertEntry next
       entries := entries
       breakpoints := w.breakpoints ++ [d] }) ∧
     (stop.action = .pauseDomain → p.park = .low → w.edge t ⟨t, d, .rise⟩ = { w with
       state := (raised (w.state.setDomain d (some { risen with life := .active (.pause .count) }))).insertEntry next
       entries := entries }) ∧
     (stop.action = .pauseDomain → p.park = .high → w.edge t ⟨t, d, .rise⟩ = { w with
       state := raised (w.state.setDomain d (some { risen with life := .paused .count }))
       entries := entries
       notices := w.notices ++ [(.paused d .count, r.subscribers)] })) ∧
  (∀ (w : Advance) (t : Nat) (d : DomainNo) (r : Domain), w.state.domain d = some r →
     let counted := { r with count := min (2 ^ 32 - 1) (r.count + 1) }
     let put := fun (x : Domain) => w.state.setDomain d (some x)
     let raised := fun (a : State) => { a with events := { a.events with count := Bits.add a.events.count d } }
     let reached := fun (action : StopAction) =>
       ∃ n, r.stop = some ⟨n, action⟩ ∧ r.count < 2 ^ 32 - 1 ∧ r.count + 1 = n
     let companionRuns := ∃ p c x, r.source = .primary p ∧ p.companion = some c ∧ w.state.domain c = some x ∧
       x.isActive = true
     ((∀ action, ¬ reached action) → w.count d = { w with state := put counted }) ∧
     (reached .notify → w.count d = { w with state := raised (put counted) }) ∧
     (reached .stopCabinet →
       w.count d = { w with state := raised (put counted), breakpoints := w.breakpoints ++ [d] }) ∧
     (reached .pauseDomain → r.life = .active .nothing → ¬ companionRuns →
       w.count d = { w with state := raised (put { counted with life := .active (.pause .count) }) }) ∧
     (reached .pauseDomain → r.life ≠ .active .nothing ∨ companionRuns →
       w.count d = { w with state := raised (put counted) }) ∧
     ∀ kind level, (kind, level) ∈ [(EdgeKind.rise, Level.high), (.fall, .low)] → level = r.park →
       (∀ reason, r.life = .active (.pause reason) → w.finish d kind t = { w with
         state := put { r with life := .paused reason }
         notices := w.notices ++ [(.paused d reason, r.subscribers)] }) ∧
       (∀ p, r.life = .active .retire → r.source = .primary p → w.finish d kind t = { w with
         state := w.state.setDomain d none
         notices := w.notices ++ [(.retired d, r.subscribers)] }) ∧
       (∀ c parent p, r.life = .active .retire → r.source = .companion c → c.parent ≠ d →
         w.state.domain c.parent = some parent → parent.source = .primary p → w.finish d kind t = { w with
           state := (w.state.setDomain c.parent
             (some { parent with source := .primary { p with companion := none } })).setDomain d none
           notices := w.notices ++ [(.retired d, r.subscribers)] }))

/-! Run commands -/

/-- (1) RUN and STEP in STOPPED with a member: the budget is the one carried (SETS 1 for STEP), the record says NONE,
the hold timers of members that hold a cause are armed, and the run is RUNNING (R92, R93, R94, R95, R154). (2) RUN
with any limit and STEP that find the calendar empty stop at once with cause NO_EDGES, with the budget that the
command carries, and their reply is still OK (R92, R94, R95): STOPPED when every member stands at outstanding 0, and
else DRAINING (R98). -/
def Obligations.RunAndStepStartTheRun : Prop :=
  (∀ (s : State) (form v1 v2 v3 v4 v5 v6 : Byte) (budget : Budget),
     s.frameStatus = .ready → s.runState = .stopped → (∃ b, (s.board b).member = true) → s.calendar ≠ [] →
     let value := ((((v1.toNat * 256 + v2.toNat) * 256 + v3.toNat) * 256 + v4.toNat) * 256 + v5.toNat) * 256 + v6.toNat
     (form = 0x00#8 ∧ value = 0 ∧ budget = .unlimited ∨
       form = 0x01#8 ∧ 1 ≤ value ∧ value < 2 ^ 32 ∧ budget = .sets value ∨
       form = 0x02#8 ∧ s.time < value ∧ budget = .untilTime value) →
     let started := fun (b : Budget) => { s with
       budget := b
       runState := .running
       stopRecord := ⟨.nothing, none, none, none, s.time, s.seq⟩
       boards := Vector.ofFn fun b =>
         if (s.board b).member = true ∧ (s.board b).held ≠ 0 ∧ (s.board b).holdLimit ≠ 0 then
           { s.board b with holdTimer := some (s.clock + 100000 * (s.board b).holdLimit) }
         else s.board b }
     exec (.run [form, v1, v2, v3, v4, v5, v6]) s = .next (answered (started budget) 0x20#8 .ok [] 7) ∧
     exec (.step []) s = .next (answered (started (.sets 1)) 0x21#8 .ok [] 0)) ∧
  (∀ (s : State) (form v1 v2 v3 v4 v5 v6 : Byte) (budget : Budget),
     s.frameStatus = .ready → s.runState = .stopped → (∃ b, (s.board b).member = true) → s.calendar = [] →
     let value := ((((v1.toNat * 256 + v2.toNat) * 256 + v3.toNat) * 256 + v4.toNat) * 256 + v5.toNat) * 256 + v6.toNat
     (form = 0x00#8 ∧ value = 0 ∧ budget = .unlimited ∨
       form = 0x01#8 ∧ 1 ≤ value ∧ value < 2 ^ 32 ∧ budget = .sets value ∨
       form = 0x02#8 ∧ s.time < value ∧ budget = .untilTime value) →
     let drains := fun (b : Budget) => { s with
       budget := b
       runState := .draining
       stopRecord := ⟨.noEdges, none, none, none, s.time, s.seq⟩
       boards := holdTimersOff s }
     let stopped := fun (b : Budget) => { drains b with
       runState := .stopped
       events := { s.events with stopped := true } }
     (membersClear s →
       exec (.run [form, v1, v2, v3, v4, v5, v6]) s = .next (answered (stopped budget) 0x20#8 .ok [] 7) ∧
       exec (.step []) s = .next (answered (stopped (.sets 1)) 0x21#8 .ok [] 0)) ∧
     (¬ membersClear s →
       exec (.run [form, v1, v2, v3, v4, v5, v6]) s = .next (answered (drains budget) 0x20#8 .ok [] 7) ∧
       exec (.step []) s = .next (answered (drains (.sets 1)) 0x21#8 .ok [] 0)))

/-- RUN, STEP, REWIND and RESYNC outside STOPPED are answered WRONG_STATE, and without a member NO_MEMBERS; they
change nothing else (R93, R107). A RUN limit of an unknown form or out of range is BAD_PARAM in any state, and an
UNTIL limit that is not ahead of emulation time is BAD_PARAM after the other checks (R93, R185). -/
def Obligations.RunCommandsAreRefusedOutsideStopped : Prop :=
  ∀ (s : State) (form v1 v2 v3 v4 v5 v6 : Byte),
    s.frameStatus = .ready →
    let value := ((((v1.toNat * 256 + v2.toNat) * 256 + v3.toNat) * 256 + v4.toNat) * 256 + v5.toNat) * 256 + v6.toNat
    let limit := form = 0x00#8 ∧ value = 0 ∨ form = 0x01#8 ∧ 1 ≤ value ∧ value < 2 ^ 32 ∨ form = 0x02#8
    (¬ limit → exec (.run [form, v1, v2, v3, v4, v5, v6]) s = .next (answered s 0x20#8 .badParam [] 7)) ∧
    (∀ c code n, (c, code, n) ∈ [(Instr.run [form, v1, v2, v3, v4, v5, v6], 0x20#8, 7), (.step [], 0x21#8, 0),
        (.rewind [], 0x24#8, 0), (.resync [], 0x25#8, 0)] → limit →
      (s.runState ≠ .stopped → exec c s = .next (answered s code .wrongState [] n)) ∧
      (s.runState = .stopped → (∀ b, (s.board b).member = false) →
        exec c s = .next (answered s code .noMembers [] n))) ∧
    (form = 0x02#8 → s.runState = .stopped → (∃ b, (s.board b).member = true) → value ≤ s.time →
      exec (.run [form, v1, v2, v3, v4, v5, v6]) s = .next (answered s 0x20#8 .badParam [] 7))

/-- STOP drains a RUNNING cabinet with cause STOP_COMMAND, at once when no member has anything outstanding, and is
answered ALREADY in any other run state; the budget stands (R96). -/
def Obligations.StopDrainsARunningCabinet : Prop :=
  ∀ s : State, s.frameStatus = .ready →
    let draining := { s with
      runState := .draining
      stopRecord := ⟨.stopCommand, none, none, none, s.time, s.seq⟩
      boards := holdTimersOff s }
    (s.runState = .running → ¬ membersClear s →
      exec (.stop []) s = .next (answered draining 0x22#8 .ok [] 0)) ∧
    (s.runState = .running → membersClear s →
      exec (.stop []) s = .next (answered { draining with
        runState := .stopped
        events := { s.events with stopped := true } } 0x22#8 .ok [] 0)) ∧
    (s.runState ≠ .running → exec (.stop []) s = .next (answered s 0x22#8 .already [] 0))

/-- CLEAR takes a HALTED cabinet to STOPPED when HALT_N is negated and every member is LINKED with nothing
outstanding; it keeps the record and raises nothing; NOT_READY when a condition fails; WRONG_STATE outside HALTED
(R105). -/
def Obligations.ClearLeavesHalted : Prop :=
  ∀ s : State, s.frameStatus = .ready →
    let clear := s.haltAsserted = false ∧
      ∀ b, (s.board b).member = true → (s.board b).link = .linked ∧ (s.board b).outstanding = 0
    (s.runState = .halted → clear →
      exec (.clear []) s =
        .next (answered { s with runState := .stopped, furtherFaults := 0 } 0x23#8 .ok [] 0)) ∧
    (s.runState = .halted → ¬ clear → exec (.clear []) s = .next (answered s 0x23#8 .notReady [] 0)) ∧
    (s.runState ≠ .halted → exec (.clear []) s = .next (answered s 0x23#8 .wrongState [] 0))

/-- (1) READ RUN answers the run record in every run state and changes nothing: the run state, emulation time, last
sequence number, budget, stop cause record and further-fault count, in the 34 bytes of R187 (R92, R100, R101, R187).
(2) The domain snapshot and the event sets, every byte of R187 (R30, R180, R187): a companion's period, high time and
phase are those derived from its parent (R7), and the next edge is given while the record is ACTIVE. (3) Every frame
the CT64 sends: its kind, its length, its payload and two CRC bytes (R62, R137, R162, R182). Numbers of several bytes
go most-significant byte first (R170, R182). (4) The codes of R183 and R186, in the order of their tables. -/
def Obligations.ReportsAreLaidOut : Prop :=
  (∀ s : State, s.frameStatus = .ready →
     let c := s.stopRecord
     let data := s.runState.byte :: Bytes.be 6 s.time ++ Bytes.be 4 s.seq.toNat ++
       (match s.budget with
         | .unlimited => [0, 0, 0, 0, 0, 0, 0]
         | .sets n => 0x01#8 :: Bytes.be 6 n
         | .untilTime l => 0x02#8 :: Bytes.be 6 l) ++
       [c.cause.byte,
         BitVec.ofNat 8 ((if c.board = none then 0 else 1) + (if c.domain = none then 0 else 2) +
           (if c.code = none then 0 else 4)),
         (match c.board with
           | some b => BitVec.ofNat 8 b.val
           | none => 0x00#8),
         (match c.domain with
           | some d => BitVec.ofNat 8 d.val
           | none => 0x00#8),
         (match c.code with
           | some x => x
           | none => 0x00#8)] ++
       Bytes.be 6 c.time ++ Bytes.be 4 c.seq.toNat ++ [BitVec.ofNat 8 s.furtherFaults]
     exec (.readRun []) s = .next (answered s 0x26#8 .ok data 0) ∧ data.length = 34) ∧
  (∀ (s : State) (who : Owner) (d : DomainNo) (r : Domain),
     let snapshot := s.snapshot who d r
     let bytes := fun (i n : Nat) => (snapshot.drop i).take n
     (who = .service → snapshot.length = 53 ∧ snapshot.drop 45 = Bytes.be 8 r.subscribers.toNat) ∧
     (∀ b : BoardNo, who = .board b → snapshot.length = 46 ∧
       snapshot.drop 45 = [if Bits.has r.subscribers b then 0x01#8 else 0x00#8]) ∧
     bytes 0 2 = [BitVec.ofNat 8 d.val, match r.life with
       | .defined => 0x01#8
       | .active _ => 0x02#8
       | .paused _ => 0x03#8] ∧
     bytes 2 2 = Bytes.be 2 r.label ∧
     bytes 4 1 = [match r.owner with
       | .service => 0xFF#8
       | .board b => BitVec.ofNat 8 b.val] ∧
     (∀ p, r.source = .primary p →
       bytes 5 2 = [0x00#8, p.park.byte] ∧
       bytes 7 6 = Bytes.be 2 p.period ++ Bytes.be 2 p.high ++ Bytes.be 2 p.phase ∧
       bytes 13 3 = [0xFF#8, 0x00#8, match p.companion with
         | none => 0xFF#8
         | some c => BitVec.ofNat 8 c.val]) ∧
     (∀ c, r.source = .companion c →
       bytes 5 2 = [0x01#8, 0x00#8] ∧ bytes 13 3 = [BitVec.ofNat 8 c.parent.val, BitVec.ofNat 8 c.gap, 0xFF#8] ∧
       ∀ parent p, s.domain c.parent = some parent → parent.source = .primary p →
         bytes 7 6 = Bytes.be 2 p.period ++ Bytes.be 2 (p.period - p.high - 2 * c.gap) ++
           Bytes.be 2 ((p.phase + p.high + c.gap) % p.period)) ∧
     bytes 16 7 = r.level.byte :: (Bytes.be 2 r.generation.toNat ++ Bytes.be 4 r.count) ∧
     bytes 23 5 = (match r.stop with
       | none => [0x00#8, 0x00#8, 0x00#8, 0x00#8, 0x00#8]
       | some ⟨n, .pauseDomain⟩ => 0x01#8 :: Bytes.be 4 n
       | some ⟨n, .stopCabinet⟩ => 0x02#8 :: Bytes.be 4 n
       | some ⟨n, .notify⟩ => 0x03#8 :: Bytes.be 4 n) ∧
     (r.isActive = false ∨ s.nextEdge d = none → bytes 28 9 = List.replicate 9 0x00#8) ∧
     (∀ e, r.isActive = true → s.nextEdge d = some e →
       bytes 28 9 = (if e.kind = .rise then 0x01#8 else 0x02#8) :: Bytes.be 8 e.time) ∧
     bytes 37 6 = (match r.life with
       | .active .nothing => [0x01#8, 0x00#8, 0x00#8, 0x00#8, 0x00#8, 0x00#8]
       | .active (.revisePrimary period high) => 0x02#8 :: (Bytes.be 2 period ++ Bytes.be 2 high ++ [0x00#8])
       | .active (.reviseCompanion gap) => [0x02#8, 0x00#8, 0x00#8, 0x00#8, 0x00#8, BitVec.ofNat 8 gap]
       | .active (.pause _) => [0x03#8, 0x00#8, 0x00#8, 0x00#8, 0x00#8, 0x00#8]
       | .active .retire => [0x04#8, 0x00#8, 0x00#8, 0x00#8, 0x00#8, 0x00#8]
       | .defined => List.replicate 6 0x00#8
       | .paused _ => List.replicate 6 0x00#8) ∧
     bytes 43 2 = [
       (match r.life with
         | .paused .requested => 0x01#8
         | .paused .count => 0x02#8
         | .defined => 0x00#8
         | .active _ => 0x00#8),
       BitVec.ofNat 8 ((List.range 64).filter fun b => Bits.has r.subscribers b).length] ∧
     s.events.bytes.length = 31 ∧
     (∃ flags : Byte, s.events.bytes.take 1 = [flags] ∧ flags.toNat < 16 ∧ flags.getLsbD 0 = s.events.resetDone ∧
       flags.getLsbD 1 = s.events.stopped ∧ flags.getLsbD 2 = s.events.halted ∧ flags.getLsbD 3 = s.events.haltLine) ∧
     s.events.bytes.drop 1 = Bytes.be 8 s.events.linked.toNat ++ Bytes.be 8 s.events.linkDown.toNat ++
       Bytes.be 8 s.events.boardFault.toNat ++ Bytes.be 6 s.events.count.toNat) ∧
  ((∀ n v : Nat, (Bytes.be n v).length = n ∧ Bytes.toNat (Bytes.be n v) = v % 256 ^ n) ∧
   (∀ kind payload, ∃ x y, linkFrame kind payload = kind :: BitVec.ofNat 8 payload.length :: (payload ++ [x, y])) ∧
   (∀ n, (Frame.probe n).bytes = linkFrame 0x81#8 [BitVec.ofNat 8 n]) ∧
   (∀ (b : BoardNo) allowance roundTrip, (Frame.linkReady b allowance roundTrip).bytes =
     linkFrame 0x82#8 (BitVec.ofNat 8 b.val :: (Bytes.be 4 allowance ++ Bytes.be 2 roundTrip))) ∧
   (∀ kind (seq16 : BitVec 16) time index last (entries : List (DomainNo × Level)),
     (Frame.setPart ⟨kind, seq16, time, index, last, entries⟩).bytes =
       linkFrame 0x83#8 ((if kind = .edge then 0x00#8 else 0x01#8) :: (Bytes.be 2 seq16.toNat ++ Bytes.be 6 time ++
         [BitVec.ofNat 8 (index + if last = true then 128 else 0), BitVec.ofNat 8 entries.length] ++
         entries.map fun e => BitVec.ofNat 8 (e.1.val + if e.2 = .high then 128 else 0)))) ∧
   (∀ d : DomainNo,
     let notice := fun (n : Notice) (kind : Byte) (data : List Byte) =>
       (Frame.notice n).bytes = linkFrame 0x84#8 (kind :: BitVec.ofNat 8 d.val :: data)
     (∀ time, notice (.started d time) 0x01#8 (Bytes.be 8 time) ∧ notice (.resumed d time) 0x02#8 (Bytes.be 8 time)) ∧
     (∀ (generation : BitVec 16) period high phase gap, notice (.revised d generation period high phase gap) 0x03#8
       (Bytes.be 2 generation.toNat ++ Bytes.be 2 period ++ Bytes.be 2 high ++ Bytes.be 2 phase ++
         [BitVec.ofNat 8 gap])) ∧
     notice (.paused d .requested) 0x04#8 [0x01#8] ∧ notice (.paused d .count) 0x04#8 [0x02#8] ∧
     notice (.retired d) 0x05#8 [] ∧
     (∀ lastSeq : BitVec 32, notice (.attached d .low lastSeq) 0x06#8 (0x00#8 :: Bytes.be 4 lastSeq.toNat) ∧
       notice (.attached d .high lastSeq) 0x06#8 (0x01#8 :: Bytes.be 4 lastSeq.toNat)) ∧
     notice (.detached d) 0x07#8 []) ∧
   (∀ (tag : Tag) (kind : BitVec 7) status data, (Frame.reply tag kind status data).bytes =
     linkFrame 0x85#8 (BitVec.ofNat 8 (128 * tag.val + kind.toNat) :: status.byte :: data)) ∧
   (∀ (x : Byte) status (lastSeq : BitVec 32),
     (Frame.holdAnswer x status lastSeq).bytes = linkFrame 0x86#8 (x :: status.byte :: Bytes.be 4 lastSeq.toNat) ∧
     (Frame.stopAnswer x status lastSeq).bytes = linkFrame 0x87#8 (x :: status.byte :: Bytes.be 4 lastSeq.toNat))) ∧
  ([Status.ok, .replaced, .upgraded, .already, .noSuch, .notFound, .tableFull, .duplicate, .denied, .badParam,
     .wrongState, .conflict, .dependent, .parentIdle, .gap, .taken, .released, .notHeld, .tooLate, .faulted, .notMember,
     .stopping, .notRunning, .notReady, .noMembers, .slotBusy].map Status.byte = (List.range 26).map (BitVec.ofNat 8) ∧
   Status.byte .endOfList = 0x1B#8 ∧
   [FaultKind.trainFailed, .ackTimeout, .ackOrder, .holdTimeout, .frameCheck, .badFrame, .boardError].map
     FaultKind.byte = (List.range' 1 7).map (BitVec.ofNat 8) ∧
   [StopCause.nothing, .reset, .stopCommand, .budget, .noEdges, .timeLimit, .breakpoint, .trigger, .rewind, .resync,
     .haltLine, .boardFault, .linkLost].map StopCause.byte = (List.range 13).map (BitVec.ofNat 8) ∧
   [RunState.stopped, .running, .draining, .halted].map RunState.byte = (List.range 4).map (BitVec.ofNat 8) ∧
   [PortStatus.ready, .busy, .notReady].map PortStatus.byte = [0x80#8, 0x81#8, 0x82#8])

/-- RESYNC and REWIND in STOPPED with members issue a level set: it takes the next number, every member is sent the
levels of the domains it subscribes to, counted and timed as any copy, the run drains with their cause, and the reply
carries the number (R106, R107, R134, R138, R144). RESYNC changes no record, no entry and not the time (R110). REWIND
sets the time to 0, resolves every pending change, puts every record at its park level with count 0, rebuilds the
calendar with one first edge for each record still ACTIVE, computed from time 0, and queues the notices of the
resolution after the parts, in domain order, on each LINKED subscriber's link (R13, R14, R28, R62, R63, R72, R108,
R109); nothing else of a record changes. -/
def Obligations.LevelSetsResyncAndRewind : Prop :=
  ∀ s : State, s.frameStatus = .ready → s.runState = .stopped → (∃ b, (s.board b).member = true) →
    let levels := fun (u : State) (b : BoardNo) => (List.finRange 48).filterMap fun d =>
      match u.domain d with
      | some r => if Bits.has r.subscribers b then some (d, r.level) else none
      | none => none
    let issued := fun (u : State) (cause : StopCause) (code : Byte) (time : Nat) (notices : List (Notice × BoardSet)) =>
      let queued := fun (b : BoardNo) =>
        if (s.board b).link = .linked then (notices.filter fun n => Bits.has n.2 b).map fun n => Frame.notice n.1
        else []
      answered { u with
        time := time
        seq := s.seq + 1
        runState := .draining
        stopRecord := ⟨cause, none, none, none, time, s.seq + 1⟩
        boards := Vector.ofFn fun b =>
          if (s.board b).member = true then { s.board b with
            outstanding := (s.board b).outstanding + 1
            ackTimer :=
              if (s.board b).outstanding = 0 then
                some ⟨s.clock, s.clock + (100 * (s.board b).ackBase + 4 * (s.board b).roundTrip)⟩
              else (s.board b).ackTimer
            holdTimer := none
            txQueue := (s.board b).txQueue ++
              copyFrames .level (s.seq + 1) time (s.board b).partSize (levels u b) ++ queued b }
          else { s.board b with holdTimer := none, txQueue := (s.board b).txQueue ++ queued b } }
        code .ok (Bytes.be 4 (s.seq + 1).toNat) 0
    exec (.resync []) s = .next (issued s .resync 0x25#8 s.time []) ∧
    ∃ records calendar,
      let u := { s with records := records, calendar := calendar }
      let revised := fun (d : DomainNo) (q : Domain) =>
        Notice.revised d q.generation (u.wave q).period (u.wave q).high (u.wave q).phase q.gap
      let notices := (List.finRange 48).filterMap fun d =>
        match s.domain d with
        | none => none
        | some r =>
          match r.life, u.domain d with
          | .active (.pause reason), _ => some (Notice.paused d reason, r.subscribers)
          | .active .retire, _ => some (.retired d, r.subscribers)
          | .active (.revisePrimary _ _), some q => some (revised d q, r.subscribers)
          | .active (.reviseCompanion _), some q => some (revised d q, r.subscribers)
          | _, _ => none
      exec (.rewind []) s = .next (issued u .rewind 0x24#8 0 notices) ∧
      (∀ d, s.domain d = none → u.domain d = none) ∧
      (∀ d r, s.domain d = some r →
        let retiring := ∃ e x c, s.domain e = some x ∧ x.source = .companion c ∧ c.parent = d ∧ x.life = .active .retire
        let stands := r.life = .defined ∨ (∃ reason, r.life = .paused reason) ∨ r.life = .active .nothing
        (r.life = .active .retire → u.domain d = none) ∧
        (∀ p, r.source = .primary p → ∃ companion, (retiring → companion = none) ∧
          (¬ retiring → companion = p.companion) ∧
          let becomes := fun (life : Life) (period high phase : Nat) (generation : BitVec 16) =>
            u.domain d = some { r with
              source := .primary ⟨period, high, phase, p.park, companion⟩
              level := p.park
              count := 0
              generation := generation
              life := life }
          (stands → becomes r.life p.period p.high p.phase r.generation) ∧
          (∀ reason, r.life = .active (.pause reason) →
            becomes (.paused reason) p.period p.high p.phase r.generation) ∧
          (∀ period high, r.life = .active (.revisePrimary period high) →
            becomes (.active .nothing) period high (p.phase % period) (r.generation + 1))) ∧
        (∀ c, r.source = .companion c →
          let becomes := fun (life : Life) (gap : Nat) (generation : BitVec 16) =>
            u.domain d = some { r with
              source := .companion ⟨c.parent, gap⟩
              level := .low
              count := 0
              generation := generation
              life := life }
          (stands → becomes r.life c.gap r.generation) ∧
          (∀ reason, r.life = .active (.pause reason) → becomes (.paused reason) c.gap r.generation) ∧
          (∀ gap, r.life = .active (.reviseCompanion gap) → becomes (.active .nothing) gap (r.generation + 1)))) ∧
      (calendar.Pairwise fun x y => x.before y = true) ∧
      (∀ x ∈ calendar, ∀ y ∈ calendar, x.domain = y.domain → x = y) ∧
      (∀ d, (∃ x ∈ calendar, x.domain = d) ↔ ∃ r, u.domain d = some r ∧ r.isActive = true) ∧
      ∀ x ∈ calendar, ∀ r, u.domain x.domain = some r →
        let earliest := fun (bound residue period time : Nat) =>
          bound ≤ time ∧ time % period = residue % period ∧ ∀ v, bound ≤ v → v % period = residue % period → time ≤ v
        (∀ p, r.source = .primary p → 0 < p.period →
          (p.park = .low → x.kind = .rise ∧ earliest 1 p.phase p.period x.time) ∧
          (p.park = .high → x.kind = .fall ∧ earliest 1 (p.phase + p.high) p.period x.time)) ∧
        (∀ c parent p, r.source = .companion c → u.domain c.parent = some parent → parent.source = .primary p →
          0 < p.period → x.kind = .rise ∧
          (p.park = .low → earliest c.gap (p.phase + p.high + c.gap) p.period x.time) ∧
          (p.park = .high → ∀ fall, earliest 1 (p.phase + p.high) p.period fall → x.time = fall + c.gap))

/-! Board commands -/

/-- (1) ADMIT and EXPEL: refused above 63 and while the run is RUNNING or DRAINING; ADMIT makes a LINKED board a
member; EXPEL takes a member's outstanding sets, holds and timed-out causes, and its subscriptions and ownership in
every record (R21, R127, R128). (2) RETRAIN of a board in FAULT empties its timed-out set and its queue, and the link
enters TRAINING when there is signal and DOWN otherwise; in any other link state it is WRONG_STATE (R116, R126). The
first probe counts as sent, and its wait and its round trip as begun, at the instant it becomes current (the model's
choice, log 6). -/
def Obligations.BoardsAreAdmittedExpelledAndRetrained : Prop :=
  (∀ (s : State) (x : Byte),
     s.frameStatus = .ready →
     (64 ≤ x.toNat → exec (.admitBoard [x]) s = .next (answered s 0x30#8 .badParam [] 1) ∧
       exec (.expel [x]) s = .next (answered s 0x31#8 .badParam [] 1)) ∧
     ∀ b : BoardNo, x.toNat = b.val →
       (s.runState = .running ∨ s.runState = .draining →
         exec (.admitBoard [x]) s = .next (answered s 0x30#8 .wrongState [] 1) ∧
         exec (.expel [x]) s = .next (answered s 0x31#8 .wrongState [] 1)) ∧
       (s.runState = .stopped ∨ s.runState = .halted →
         ((s.board b).member = true → exec (.admitBoard [x]) s = .next (answered s 0x30#8 .already [] 1)) ∧
         ((s.board b).member = false → (s.board b).link ≠ .linked →
           exec (.admitBoard [x]) s = .next (answered s 0x30#8 .notReady [] 1)) ∧
         ((s.board b).member = false → (s.board b).link = .linked →
           exec (.admitBoard [x]) s =
             .next (answered (s.setBoard b { s.board b with member := true }) 0x30#8 .ok [] 1)) ∧
         ((s.board b).member = false → exec (.expel [x]) s = .next (answered s 0x31#8 .already [] 1)) ∧
         ((s.board b).member = true →
           exec (.expel [x]) s = .next (answered { s.setBoard b { s.board b with
               outstanding := 0
               ackTimer := none
               held := 0
               holdTimer := none
               timedOut := 0
               member := false } with
             records := Vector.ofFn fun d => (s.domain d).map fun r => { r with
               subscribers := Bits.remove r.subscribers b
               owner := if r.owner = .board b then .service else r.owner } } 0x31#8 .ok [] 1)))) ∧
  (∀ (s : State) (x : Byte),
     s.frameStatus = .ready →
     (64 ≤ x.toNat → exec (.retrain [x]) s = .next (answered s 0x32#8 .badParam [] 1)) ∧
     ∀ b : BoardNo, x.toNat = b.val →
       ((s.board b).link ≠ .fault → exec (.retrain [x]) s = .next (answered s 0x32#8 .wrongState [] 1)) ∧
       ((s.board b).link = .fault →
         exec (.retrain [x]) s = .next (answered (s.setBoard b { s.board b with
           timedOut := 0
           txQueue := []
           link := if (s.board b).signal = true then .training ⟨s.filterK, 1, [], s.clock⟩ else .down })
           0x32#8 .ok [] 1)))

/-- (1) SET BOARD replaces a board's three limits outside RUNNING while it has nothing outstanding, its checks in
order (R130). (2) READ BOARD answers the 28 bytes of the board record in every state and then sets the longest ack
wait to 0 (R112, R131, R142, R144, R187). -/
def Obligations.BoardSettingsAreSetAndReported : Prop :=
  (∀ (s : State) (x w h1 h2 a1 a2 : Byte),
     s.frameStatus = .ready →
     let inRange := x.toNat < 64 ∧ 1 ≤ w.toNat ∧ w.toNat ≤ 8 ∧ 1 ≤ a1.toNat * 256 + a2.toNat
     let answer := fun (t : State) (status : Status) =>
       exec (.setBoard [x, w, h1, h2, a1, a2]) s = .next (answered t 0x33#8 status [] 6)
     (¬ inRange → answer s .badParam) ∧
     ∀ b : BoardNo, x.toNat = b.val → inRange →
       (s.runState = .running ∨ (s.board b).outstanding ≠ 0 → answer s .wrongState) ∧
       (s.runState ≠ .running → (s.board b).outstanding = 0 →
         answer (s.setBoard b { s.board b with
           window := w.toNat
           holdLimit := h1.toNat * 256 + h2.toNat
           ackBase := a1.toNat * 256 + a2.toNat }) .ok)) ∧
  (∀ (s : State) (x : Byte),
     s.frameStatus = .ready →
     (64 ≤ x.toNat → exec (.readBoard [x]) s = .next (answered s 0x34#8 .badParam [] 1)) ∧
     ∀ b : BoardNo, x.toNat = b.val →
       let e := s.board b
       let data := [
           (match e.link with
             | .down => 0x00#8
             | .training _ => 0x01#8
             | .linked => 0x02#8
             | .fault => 0x03#8),
           if e.member = true then 0x01#8 else 0x00#8,
           (match e.lastFault with
             | none => 0x00#8
             | some k => k.byte)] ++
         Bytes.be 2 e.roundTrip ++
         [(match e.capacity with
             | none => 0#8
             | some .four => 4#8
             | some .eight => 8#8
             | some .sixteen => 16#8
             | some .fortyEight => 48#8),
           BitVec.ofNat 8 e.window] ++
         Bytes.be 2 e.holdLimit ++ Bytes.be 2 e.ackBase ++ Bytes.be 4 (100 * e.ackBase + 4 * e.roundTrip) ++
         [BitVec.ofNat 8 e.outstanding, e.held.setWidth 8, e.timedOut.setWidth 8] ++
         Bytes.be 4 e.ackedSets.toNat ++ Bytes.be 4 e.holdsTaken.toNat ++ Bytes.be 2 e.longestAckWait
       exec (.readBoard [x]) s =
         .next (answered (s.setBoard b { e with longestAckWait := 0 }) 0x34#8 .ok data 1) ∧ data.length = 28)

/-! Encodings -/

/-- (1) Every frame a board can send is read back from its bytes as the command it is, with every operand: the frame
check accepts it and dispatches it by its kind (R120, R121, R182). A REQUEST with more parameter bytes than R182
allows fails the form check. (2) The bytes of every frame, CRC field included, leave the register at the check value
0000h, and a change of the CRC field never does (R120, R182). -/
def Obligations.LinkFramesReadBackAndCheckToZero : Prop :=
  (∀ (c : Instr) (b : BoardNo) (bytes : List Byte),
     c.link? = some b → encodeLinkFrame c = some bytes →
     (c.wf = true → decodeLinkFrame b bytes c.arrival? = c) ∧
     (c.wf = false → decodeLinkFrame b bytes c.arrival? = .badFrame b)) ∧
  (∀ (kind : Byte) (payload : List Byte) (x y : Byte),
     crc16 (linkFrame kind payload) = 0x0000#16 ∧
     (crc16 (kind :: BitVec.ofNat 8 payload.length :: payload ++ [x, y]) = 0x0000#16 →
       kind :: BitVec.ofNat 8 payload.length :: payload ++ [x, y] = linkFrame kind payload))

/-- Every service command is read back from its bytes (R171, R184), from their bits, most-significant bit first, with
fewer than eight more bits after them ignored (R170, R171), and from the lines, SDI read at each rising edge of SCK
(R170). -/
def Obligations.ServiceFramesReadBack : Prop :=
  ∀ (c : Instr) (bytes : List Byte) (extra : List Bool),
    c.wf = true → encodeServiceFrame c = some bytes → extra.length < 8 →
    decodeServiceFrame bytes = c ∧
    decodeServiceBits (Bytes.bits bytes ++ extra) = c ∧
    decodeServiceWires ((Bytes.bits bytes ++ extra).flatMap fun x => [(false, x), (true, x)]) = c

/-! Invariants -/

/-- Every invariant below holds at reset (R1, R18, R73, R89, R113, R169, R176, R179). -/
def Obligations.ResetSatisfiesTheInvariants : Prop :=
  InRange State.reset ∧ RunSettled State.reset ∧ (∀ b, RepliesQueued (State.reset.board b)) ∧ Quiet State.reset ∧
    RecordsOk State.reset ∧ CalendarAhead State.reset ∧ CalendarExact State.reset

/-- Every step keeps the ranges of `InRange`: emulation time (R1) and the time of the stop cause record (R100), the
run budget (R92), the LIST cursor (R31), the further-fault count (R102), the escalation counter and E (R166, R176), K
and the mask (R176, R179), and each board entry's window, limits, round trip and longest ack wait with its training
capture, whose PROBE was sent at an instant that has come (R112, R116, R117, R119, R142). The Domain Table's ranges,
the calendar's and the outstanding counts have invariants of their own. -/
def Obligations.EveryStepKeepsTheRanges : Prop :=
  ∀ s t, InRange s → step s = .next t → InRange t

/-- Every step keeps the agreement of the board entries with the run state: outstanding between 0 and W, and 0 with
no cause held out of service; STOPPED with nothing outstanding; DRAINING waiting for a member; a member out of
service only while HALTED (R88, R98, R102, R124, R138, R149, R154, R157). -/
def Obligations.EveryStepKeepsTheRunSettled : Prop :=
  ∀ s t, RunSettled s → step s = .next t → RunSettled t

/-- Every step keeps a slot REPLIED exactly while its reply is in the transmit queue (R161, R163). -/
def Obligations.EveryStepKeepsRepliesQueued : Prop :=
  ∀ s t, RunSettled s → (∀ b, RepliesQueued (s.board b)) → step s = .next t → ∀ b, RepliesQueued (t.board b)

/-- Every step keeps the quiet of reset (R18, R73, R89, R113, R172, R179). -/
def Obligations.EveryStepKeepsTheQuietOfReset : Prop :=
  ∀ s t, Quiet s → step s = .next t → Quiet t

/-- Every step keeps the Domain Table's laws: the ranges, unique labels, the link of a pair both ways, the gap
constraint for values in force and pending, and an ACTIVE companion's parent ACTIVE (R3, R8, R15, R19, R28, R59). -/
def Obligations.EveryStepKeepsTheRecords : Prop :=
  ∀ s t, RecordsOk s → step s = .next t → RecordsOk t

/-- Every step keeps the calendar sorted and every entry ahead of emulation time (R2, R67, R68). -/
def Obligations.EveryStepKeepsTheCalendarAhead : Prop :=
  ∀ s t, RecordsOk s → CalendarAhead s → step s = .next t → CalendarAhead t

/-- Every step keeps exactly one entry for each ACTIVE record, of the kind its level asks for, on the congruences of
its waveform, every entry's time in its range, and the timing of each pair (R4, R5, R17, R67, R68, R71). -/
def Obligations.EveryStepKeepsTheCalendarExact : Prop :=
  ∀ s t, RecordsOk s → CalendarExact s → step s = .next t → CalendarExact t

/-- A companion and its parent are never both HIGH (R8). -/
def Obligations.PairsNeverOverlap : Prop :=
  ∀ s : State, RecordsOk s → CalendarExact s → NoOverlap s
end

