-- ==== Sys2Proof/Laws/State.lean ====
section
/-! SUPPORT. What each named update of State leaves alone, field by field, and what board entries and records read
after it. -/

namespace Sys2Proof.Machine

/-! Field lemmas -/

/-- Boards are read through their vector. -/
theorem State.board_of_boards {s t : State} (h : s.boards = t.boards) (b : BoardNo) : s.board b = t.board b := by
  simp [State.board, h]

theorem State.domain_of_records {s t : State} (h : s.records = t.records) (d : DomainNo) :
    s.domain d = t.domain d := by
  simp [State.domain, h]

@[simp] theorem State.setBoard_phase (s : State) (b : BoardNo) (e : Board) :
    (s.setBoard b e).phase = s.phase := rfl
@[simp] theorem State.setBoard_clock (s : State) (b : BoardNo) (e : Board) :
    (s.setBoard b e).clock = s.clock := rfl
@[simp] theorem State.setBoard_haltAsserted (s : State) (b : BoardNo) (e : Board) :
    (s.setBoard b e).haltAsserted = s.haltAsserted := rfl
@[simp] theorem State.setBoard_time (s : State) (b : BoardNo) (e : Board) :
    (s.setBoard b e).time = s.time := rfl
@[simp] theorem State.setBoard_seq (s : State) (b : BoardNo) (e : Board) :
    (s.setBoard b e).seq = s.seq := rfl
@[simp] theorem State.setBoard_calendar (s : State) (b : BoardNo) (e : Board) :
    (s.setBoard b e).calendar = s.calendar := rfl
@[simp] theorem State.setBoard_records (s : State) (b : BoardNo) (e : Board) :
    (s.setBoard b e).records = s.records := rfl
@[simp] theorem State.setBoard_runState (s : State) (b : BoardNo) (e : Board) :
    (s.setBoard b e).runState = s.runState := rfl
@[simp] theorem State.setBoard_budget (s : State) (b : BoardNo) (e : Board) :
    (s.setBoard b e).budget = s.budget := rfl
@[simp] theorem State.setBoard_stopRecord (s : State) (b : BoardNo) (e : Board) :
    (s.setBoard b e).stopRecord = s.stopRecord := rfl
@[simp] theorem State.setBoard_furtherFaults (s : State) (b : BoardNo) (e : Board) :
    (s.setBoard b e).furtherFaults = s.furtherFaults := rfl
@[simp] theorem State.setBoard_pointer (s : State) (b : BoardNo) (e : Board) :
    (s.setBoard b e).pointer = s.pointer := rfl
@[simp] theorem State.setBoard_escalation (s : State) (b : BoardNo) (e : Board) :
    (s.setBoard b e).escalation = s.escalation := rfl
@[simp] theorem State.setBoard_slot (s : State) (b : BoardNo) (e : Board) :
    (s.setBoard b e).slot = s.slot := rfl
@[simp] theorem State.setBoard_listCursor (s : State) (b : BoardNo) (e : Board) :
    (s.setBoard b e).listCursor = s.listCursor := rfl
@[simp] theorem State.setBoard_frame (s : State) (b : BoardNo) (e : Board) :
    (s.setBoard b e).frame = s.frame := rfl
@[simp] theorem State.setBoard_sdo (s : State) (b : BoardNo) (e : Board) :
    (s.setBoard b e).sdo = s.sdo := rfl
@[simp] theorem State.setBoard_filterK (s : State) (b : BoardNo) (e : Board) :
    (s.setBoard b e).filterK = s.filterK := rfl
@[simp] theorem State.setBoard_escalationE (s : State) (b : BoardNo) (e : Board) :
    (s.setBoard b e).escalationE = s.escalationE := rfl
@[simp] theorem State.setBoard_events (s : State) (b : BoardNo) (e : Board) :
    (s.setBoard b e).events = s.events := rfl
@[simp] theorem State.setBoard_mask (s : State) (b : BoardNo) (e : Board) :
    (s.setBoard b e).mask = s.mask := rfl
@[simp] theorem State.setBoard_freeCount (s : State) (b : BoardNo) (e : Board) :
    (s.setBoard b e).freeCount = s.freeCount := rfl
@[simp] theorem State.setBoard_pending (s : State) (b : BoardNo) (e : Board) :
    (s.setBoard b e).pending = s.pending := rfl
@[simp] theorem State.domain_setBoard (s : State) (b : BoardNo) (e : Board) (d' : DomainNo) :
    (s.setBoard b e).domain d' = s.domain d' := State.domain_of_records (State.setBoard_records s b e) d'

@[simp] theorem State.modifyBoard_phase (s : State) (b : BoardNo) (f : Board → Board) :
    (s.modifyBoard b f).phase = s.phase := rfl
@[simp] theorem State.modifyBoard_clock (s : State) (b : BoardNo) (f : Board → Board) :
    (s.modifyBoard b f).clock = s.clock := rfl
@[simp] theorem State.modifyBoard_haltAsserted (s : State) (b : BoardNo) (f : Board → Board) :
    (s.modifyBoard b f).haltAsserted = s.haltAsserted := rfl
@[simp] theorem State.modifyBoard_time (s : State) (b : BoardNo) (f : Board → Board) :
    (s.modifyBoard b f).time = s.time := rfl
@[simp] theorem State.modifyBoard_seq (s : State) (b : BoardNo) (f : Board → Board) :
    (s.modifyBoard b f).seq = s.seq := rfl
@[simp] theorem State.modifyBoard_calendar (s : State) (b : BoardNo) (f : Board → Board) :
    (s.modifyBoard b f).calendar = s.calendar := rfl
@[simp] theorem State.modifyBoard_records (s : State) (b : BoardNo) (f : Board → Board) :
    (s.modifyBoard b f).records = s.records := rfl
@[simp] theorem State.modifyBoard_runState (s : State) (b : BoardNo) (f : Board → Board) :
    (s.modifyBoard b f).runState = s.runState := rfl
@[simp] theorem State.modifyBoard_budget (s : State) (b : BoardNo) (f : Board → Board) :
    (s.modifyBoard b f).budget = s.budget := rfl
@[simp] theorem State.modifyBoard_stopRecord (s : State) (b : BoardNo) (f : Board → Board) :
    (s.modifyBoard b f).stopRecord = s.stopRecord := rfl
@[simp] theorem State.modifyBoard_furtherFaults (s : State) (b : BoardNo) (f : Board → Board) :
    (s.modifyBoard b f).furtherFaults = s.furtherFaults := rfl
@[simp] theorem State.modifyBoard_pointer (s : State) (b : BoardNo) (f : Board → Board) :
    (s.modifyBoard b f).pointer = s.pointer := rfl
@[simp] theorem State.modifyBoard_escalation (s : State) (b : BoardNo) (f : Board → Board) :
    (s.modifyBoard b f).escalation = s.escalation := rfl
@[simp] theorem State.modifyBoard_slot (s : State) (b : BoardNo) (f : Board → Board) :
    (s.modifyBoard b f).slot = s.slot := rfl
@[simp] theorem State.modifyBoard_listCursor (s : State) (b : BoardNo) (f : Board → Board) :
    (s.modifyBoard b f).listCursor = s.listCursor := rfl
@[simp] theorem State.modifyBoard_frame (s : State) (b : BoardNo) (f : Board → Board) :
    (s.modifyBoard b f).frame = s.frame := rfl
@[simp] theorem State.modifyBoard_sdo (s : State) (b : BoardNo) (f : Board → Board) :
    (s.modifyBoard b f).sdo = s.sdo := rfl
@[simp] theorem State.modifyBoard_filterK (s : State) (b : BoardNo) (f : Board → Board) :
    (s.modifyBoard b f).filterK = s.filterK := rfl
@[simp] theorem State.modifyBoard_escalationE (s : State) (b : BoardNo) (f : Board → Board) :
    (s.modifyBoard b f).escalationE = s.escalationE := rfl
@[simp] theorem State.modifyBoard_events (s : State) (b : BoardNo) (f : Board → Board) :
    (s.modifyBoard b f).events = s.events := rfl
@[simp] theorem State.modifyBoard_mask (s : State) (b : BoardNo) (f : Board → Board) :
    (s.modifyBoard b f).mask = s.mask := rfl
@[simp] theorem State.modifyBoard_freeCount (s : State) (b : BoardNo) (f : Board → Board) :
    (s.modifyBoard b f).freeCount = s.freeCount := rfl
@[simp] theorem State.modifyBoard_pending (s : State) (b : BoardNo) (f : Board → Board) :
    (s.modifyBoard b f).pending = s.pending := rfl
@[simp] theorem State.domain_modifyBoard (s : State) (b : BoardNo) (f : Board → Board) (d' : DomainNo) :
    (s.modifyBoard b f).domain d' = s.domain d' := State.domain_of_records (State.modifyBoard_records s b f) d'

@[simp] theorem State.mapBoards_phase (s : State) (f : BoardNo → Board → Board) :
    (s.mapBoards f).phase = s.phase := by simp only [State.mapBoards]
@[simp] theorem State.mapBoards_clock (s : State) (f : BoardNo → Board → Board) :
    (s.mapBoards f).clock = s.clock := by simp only [State.mapBoards]
@[simp] theorem State.mapBoards_haltAsserted (s : State) (f : BoardNo → Board → Board) :
    (s.mapBoards f).haltAsserted = s.haltAsserted := by simp only [State.mapBoards]
@[simp] theorem State.mapBoards_time (s : State) (f : BoardNo → Board → Board) :
    (s.mapBoards f).time = s.time := by simp only [State.mapBoards]
@[simp] theorem State.mapBoards_seq (s : State) (f : BoardNo → Board → Board) :
    (s.mapBoards f).seq = s.seq := by simp only [State.mapBoards]
@[simp] theorem State.mapBoards_calendar (s : State) (f : BoardNo → Board → Board) :
    (s.mapBoards f).calendar = s.calendar := by simp only [State.mapBoards]
@[simp] theorem State.mapBoards_records (s : State) (f : BoardNo → Board → Board) :
    (s.mapBoards f).records = s.records := by simp only [State.mapBoards]
@[simp] theorem State.mapBoards_runState (s : State) (f : BoardNo → Board → Board) :
    (s.mapBoards f).runState = s.runState := by simp only [State.mapBoards]
@[simp] theorem State.mapBoards_budget (s : State) (f : BoardNo → Board → Board) :
    (s.mapBoards f).budget = s.budget := by simp only [State.mapBoards]
@[simp] theorem State.mapBoards_stopRecord (s : State) (f : BoardNo → Board → Board) :
    (s.mapBoards f).stopRecord = s.stopRecord := by simp only [State.mapBoards]
@[simp] theorem State.mapBoards_furtherFaults (s : State) (f : BoardNo → Board → Board) :
    (s.mapBoards f).furtherFaults = s.furtherFaults := by simp only [State.mapBoards]
@[simp] theorem State.mapBoards_pointer (s : State) (f : BoardNo → Board → Board) :
    (s.mapBoards f).pointer = s.pointer := by simp only [State.mapBoards]
@[simp] theorem State.mapBoards_escalation (s : State) (f : BoardNo → Board → Board) :
    (s.mapBoards f).escalation = s.escalation := by simp only [State.mapBoards]
@[simp] theorem State.mapBoards_slot (s : State) (f : BoardNo → Board → Board) :
    (s.mapBoards f).slot = s.slot := by simp only [State.mapBoards]
@[simp] theorem State.mapBoards_listCursor (s : State) (f : BoardNo → Board → Board) :
    (s.mapBoards f).listCursor = s.listCursor := by simp only [State.mapBoards]
@[simp] theorem State.mapBoards_frame (s : State) (f : BoardNo → Board → Board) :
    (s.mapBoards f).frame = s.frame := by simp only [State.mapBoards]
@[simp] theorem State.mapBoards_sdo (s : State) (f : BoardNo → Board → Board) :
    (s.mapBoards f).sdo = s.sdo := by simp only [State.mapBoards]
@[simp] theorem State.mapBoards_filterK (s : State) (f : BoardNo → Board → Board) :
    (s.mapBoards f).filterK = s.filterK := by simp only [State.mapBoards]
@[simp] theorem State.mapBoards_escalationE (s : State) (f : BoardNo → Board → Board) :
    (s.mapBoards f).escalationE = s.escalationE := by simp only [State.mapBoards]
@[simp] theorem State.mapBoards_events (s : State) (f : BoardNo → Board → Board) :
    (s.mapBoards f).events = s.events := by simp only [State.mapBoards]
@[simp] theorem State.mapBoards_mask (s : State) (f : BoardNo → Board → Board) :
    (s.mapBoards f).mask = s.mask := by simp only [State.mapBoards]
@[simp] theorem State.mapBoards_freeCount (s : State) (f : BoardNo → Board → Board) :
    (s.mapBoards f).freeCount = s.freeCount := by simp only [State.mapBoards]
@[simp] theorem State.mapBoards_pending (s : State) (f : BoardNo → Board → Board) :
    (s.mapBoards f).pending = s.pending := by simp only [State.mapBoards]
@[simp] theorem State.domain_mapBoards (s : State) (f : BoardNo → Board → Board) (d' : DomainNo) :
    (s.mapBoards f).domain d' = s.domain d' := State.domain_of_records (State.mapBoards_records s f) d'

@[simp] theorem State.setDomain_phase (s : State) (d : DomainNo) (r : Option Domain) :
    (s.setDomain d r).phase = s.phase := rfl
@[simp] theorem State.setDomain_clock (s : State) (d : DomainNo) (r : Option Domain) :
    (s.setDomain d r).clock = s.clock := rfl
@[simp] theorem State.setDomain_haltAsserted (s : State) (d : DomainNo) (r : Option Domain) :
    (s.setDomain d r).haltAsserted = s.haltAsserted := rfl
@[simp] theorem State.setDomain_time (s : State) (d : DomainNo) (r : Option Domain) :
    (s.setDomain d r).time = s.time := rfl
@[simp] theorem State.setDomain_seq (s : State) (d : DomainNo) (r : Option Domain) :
    (s.setDomain d r).seq = s.seq := rfl
@[simp] theorem State.setDomain_calendar (s : State) (d : DomainNo) (r : Option Domain) :
    (s.setDomain d r).calendar = s.calendar := rfl
@[simp] theorem State.setDomain_runState (s : State) (d : DomainNo) (r : Option Domain) :
    (s.setDomain d r).runState = s.runState := rfl
@[simp] theorem State.setDomain_budget (s : State) (d : DomainNo) (r : Option Domain) :
    (s.setDomain d r).budget = s.budget := rfl
@[simp] theorem State.setDomain_stopRecord (s : State) (d : DomainNo) (r : Option Domain) :
    (s.setDomain d r).stopRecord = s.stopRecord := rfl
@[simp] theorem State.setDomain_furtherFaults (s : State) (d : DomainNo) (r : Option Domain) :
    (s.setDomain d r).furtherFaults = s.furtherFaults := rfl
@[simp] theorem State.setDomain_boards (s : State) (d : DomainNo) (r : Option Domain) :
    (s.setDomain d r).boards = s.boards := rfl
@[simp] theorem State.setDomain_pointer (s : State) (d : DomainNo) (r : Option Domain) :
    (s.setDomain d r).pointer = s.pointer := rfl
@[simp] theorem State.setDomain_escalation (s : State) (d : DomainNo) (r : Option Domain) :
    (s.setDomain d r).escalation = s.escalation := rfl
@[simp] theorem State.setDomain_slot (s : State) (d : DomainNo) (r : Option Domain) :
    (s.setDomain d r).slot = s.slot := rfl
@[simp] theorem State.setDomain_listCursor (s : State) (d : DomainNo) (r : Option Domain) :
    (s.setDomain d r).listCursor = s.listCursor := rfl
@[simp] theorem State.setDomain_frame (s : State) (d : DomainNo) (r : Option Domain) :
    (s.setDomain d r).frame = s.frame := rfl
@[simp] theorem State.setDomain_sdo (s : State) (d : DomainNo) (r : Option Domain) :
    (s.setDomain d r).sdo = s.sdo := rfl
@[simp] theorem State.setDomain_filterK (s : State) (d : DomainNo) (r : Option Domain) :
    (s.setDomain d r).filterK = s.filterK := rfl
@[simp] theorem State.setDomain_escalationE (s : State) (d : DomainNo) (r : Option Domain) :
    (s.setDomain d r).escalationE = s.escalationE := rfl
@[simp] theorem State.setDomain_events (s : State) (d : DomainNo) (r : Option Domain) :
    (s.setDomain d r).events = s.events := rfl
@[simp] theorem State.setDomain_mask (s : State) (d : DomainNo) (r : Option Domain) :
    (s.setDomain d r).mask = s.mask := rfl
@[simp] theorem State.setDomain_freeCount (s : State) (d : DomainNo) (r : Option Domain) :
    (s.setDomain d r).freeCount = s.freeCount := rfl
@[simp] theorem State.setDomain_pending (s : State) (d : DomainNo) (r : Option Domain) :
    (s.setDomain d r).pending = s.pending := rfl
@[simp] theorem State.board_setDomain (s : State) (d : DomainNo) (r : Option Domain) (b' : BoardNo) :
    (s.setDomain d r).board b' = s.board b' := State.board_of_boards (State.setDomain_boards s d r) b'

@[simp] theorem State.modifyDomain_phase (s : State) (d : DomainNo) (f : Domain → Domain) :
    (s.modifyDomain d f).phase = s.phase := rfl
@[simp] theorem State.modifyDomain_clock (s : State) (d : DomainNo) (f : Domain → Domain) :
    (s.modifyDomain d f).clock = s.clock := rfl
@[simp] theorem State.modifyDomain_haltAsserted (s : State) (d : DomainNo) (f : Domain → Domain) :
    (s.modifyDomain d f).haltAsserted = s.haltAsserted := rfl
@[simp] theorem State.modifyDomain_time (s : State) (d : DomainNo) (f : Domain → Domain) :
    (s.modifyDomain d f).time = s.time := rfl
@[simp] theorem State.modifyDomain_seq (s : State) (d : DomainNo) (f : Domain → Domain) :
    (s.modifyDomain d f).seq = s.seq := rfl
@[simp] theorem State.modifyDomain_calendar (s : State) (d : DomainNo) (f : Domain → Domain) :
    (s.modifyDomain d f).calendar = s.calendar := rfl
@[simp] theorem State.modifyDomain_runState (s : State) (d : DomainNo) (f : Domain → Domain) :
    (s.modifyDomain d f).runState = s.runState := rfl
@[simp] theorem State.modifyDomain_budget (s : State) (d : DomainNo) (f : Domain → Domain) :
    (s.modifyDomain d f).budget = s.budget := rfl
@[simp] theorem State.modifyDomain_stopRecord (s : State) (d : DomainNo) (f : Domain → Domain) :
    (s.modifyDomain d f).stopRecord = s.stopRecord := rfl
@[simp] theorem State.modifyDomain_furtherFaults (s : State) (d : DomainNo) (f : Domain → Domain) :
    (s.modifyDomain d f).furtherFaults = s.furtherFaults := rfl
@[simp] theorem State.modifyDomain_boards (s : State) (d : DomainNo) (f : Domain → Domain) :
    (s.modifyDomain d f).boards = s.boards := rfl
@[simp] theorem State.modifyDomain_pointer (s : State) (d : DomainNo) (f : Domain → Domain) :
    (s.modifyDomain d f).pointer = s.pointer := rfl
@[simp] theorem State.modifyDomain_escalation (s : State) (d : DomainNo) (f : Domain → Domain) :
    (s.modifyDomain d f).escalation = s.escalation := rfl
@[simp] theorem State.modifyDomain_slot (s : State) (d : DomainNo) (f : Domain → Domain) :
    (s.modifyDomain d f).slot = s.slot := rfl
@[simp] theorem State.modifyDomain_listCursor (s : State) (d : DomainNo) (f : Domain → Domain) :
    (s.modifyDomain d f).listCursor = s.listCursor := rfl
@[simp] theorem State.modifyDomain_frame (s : State) (d : DomainNo) (f : Domain → Domain) :
    (s.modifyDomain d f).frame = s.frame := rfl
@[simp] theorem State.modifyDomain_sdo (s : State) (d : DomainNo) (f : Domain → Domain) :
    (s.modifyDomain d f).sdo = s.sdo := rfl
@[simp] theorem State.modifyDomain_filterK (s : State) (d : DomainNo) (f : Domain → Domain) :
    (s.modifyDomain d f).filterK = s.filterK := rfl
@[simp] theorem State.modifyDomain_escalationE (s : State) (d : DomainNo) (f : Domain → Domain) :
    (s.modifyDomain d f).escalationE = s.escalationE := rfl
@[simp] theorem State.modifyDomain_events (s : State) (d : DomainNo) (f : Domain → Domain) :
    (s.modifyDomain d f).events = s.events := rfl
@[simp] theorem State.modifyDomain_mask (s : State) (d : DomainNo) (f : Domain → Domain) :
    (s.modifyDomain d f).mask = s.mask := rfl
@[simp] theorem State.modifyDomain_freeCount (s : State) (d : DomainNo) (f : Domain → Domain) :
    (s.modifyDomain d f).freeCount = s.freeCount := rfl
@[simp] theorem State.modifyDomain_pending (s : State) (d : DomainNo) (f : Domain → Domain) :
    (s.modifyDomain d f).pending = s.pending := rfl
@[simp] theorem State.board_modifyDomain (s : State) (d : DomainNo) (f : Domain → Domain) (b' : BoardNo) :
    (s.modifyDomain d f).board b' = s.board b' := State.board_of_boards (State.modifyDomain_boards s d f) b'

@[simp] theorem State.mapDomains_phase (s : State) (f : DomainNo → Domain → Domain) :
    (s.mapDomains f).phase = s.phase := by simp only [State.mapDomains]
@[simp] theorem State.mapDomains_clock (s : State) (f : DomainNo → Domain → Domain) :
    (s.mapDomains f).clock = s.clock := by simp only [State.mapDomains]
@[simp] theorem State.mapDomains_haltAsserted (s : State) (f : DomainNo → Domain → Domain) :
    (s.mapDomains f).haltAsserted = s.haltAsserted := by simp only [State.mapDomains]
@[simp] theorem State.mapDomains_time (s : State) (f : DomainNo → Domain → Domain) :
    (s.mapDomains f).time = s.time := by simp only [State.mapDomains]
@[simp] theorem State.mapDomains_seq (s : State) (f : DomainNo → Domain → Domain) :
    (s.mapDomains f).seq = s.seq := by simp only [State.mapDomains]
@[simp] theorem State.mapDomains_calendar (s : State) (f : DomainNo → Domain → Domain) :
    (s.mapDomains f).calendar = s.calendar := by simp only [State.mapDomains]
@[simp] theorem State.mapDomains_runState (s : State) (f : DomainNo → Domain → Domain) :
    (s.mapDomains f).runState = s.runState := by simp only [State.mapDomains]
@[simp] theorem State.mapDomains_budget (s : State) (f : DomainNo → Domain → Domain) :
    (s.mapDomains f).budget = s.budget := by simp only [State.mapDomains]
@[simp] theorem State.mapDomains_stopRecord (s : State) (f : DomainNo → Domain → Domain) :
    (s.mapDomains f).stopRecord = s.stopRecord := by simp only [State.mapDomains]
@[simp] theorem State.mapDomains_furtherFaults (s : State) (f : DomainNo → Domain → Domain) :
    (s.mapDomains f).furtherFaults = s.furtherFaults := by simp only [State.mapDomains]
@[simp] theorem State.mapDomains_boards (s : State) (f : DomainNo → Domain → Domain) :
    (s.mapDomains f).boards = s.boards := by simp only [State.mapDomains]
@[simp] theorem State.mapDomains_pointer (s : State) (f : DomainNo → Domain → Domain) :
    (s.mapDomains f).pointer = s.pointer := by simp only [State.mapDomains]
@[simp] theorem State.mapDomains_escalation (s : State) (f : DomainNo → Domain → Domain) :
    (s.mapDomains f).escalation = s.escalation := by simp only [State.mapDomains]
@[simp] theorem State.mapDomains_slot (s : State) (f : DomainNo → Domain → Domain) :
    (s.mapDomains f).slot = s.slot := by simp only [State.mapDomains]
@[simp] theorem State.mapDomains_listCursor (s : State) (f : DomainNo → Domain → Domain) :
    (s.mapDomains f).listCursor = s.listCursor := by simp only [State.mapDomains]
@[simp] theorem State.mapDomains_frame (s : State) (f : DomainNo → Domain → Domain) :
    (s.mapDomains f).frame = s.frame := by simp only [State.mapDomains]
@[simp] theorem State.mapDomains_sdo (s : State) (f : DomainNo → Domain → Domain) :
    (s.mapDomains f).sdo = s.sdo := by simp only [State.mapDomains]
@[simp] theorem State.mapDomains_filterK (s : State) (f : DomainNo → Domain → Domain) :
    (s.mapDomains f).filterK = s.filterK := by simp only [State.mapDomains]
@[simp] theorem State.mapDomains_escalationE (s : State) (f : DomainNo → Domain → Domain) :
    (s.mapDomains f).escalationE = s.escalationE := by simp only [State.mapDomains]
@[simp] theorem State.mapDomains_events (s : State) (f : DomainNo → Domain → Domain) :
    (s.mapDomains f).events = s.events := by simp only [State.mapDomains]
@[simp] theorem State.mapDomains_mask (s : State) (f : DomainNo → Domain → Domain) :
    (s.mapDomains f).mask = s.mask := by simp only [State.mapDomains]
@[simp] theorem State.mapDomains_freeCount (s : State) (f : DomainNo → Domain → Domain) :
    (s.mapDomains f).freeCount = s.freeCount := by simp only [State.mapDomains]
@[simp] theorem State.mapDomains_pending (s : State) (f : DomainNo → Domain → Domain) :
    (s.mapDomains f).pending = s.pending := by simp only [State.mapDomains]
@[simp] theorem State.board_mapDomains (s : State) (f : DomainNo → Domain → Domain) (b' : BoardNo) :
    (s.mapDomains f).board b' = s.board b' := State.board_of_boards (State.mapDomains_boards s f) b'

@[simp] theorem State.insertEntry_phase (s : State) (x : Entry) :
    (s.insertEntry x).phase = s.phase := rfl
@[simp] theorem State.insertEntry_clock (s : State) (x : Entry) :
    (s.insertEntry x).clock = s.clock := rfl
@[simp] theorem State.insertEntry_haltAsserted (s : State) (x : Entry) :
    (s.insertEntry x).haltAsserted = s.haltAsserted := rfl
@[simp] theorem State.insertEntry_time (s : State) (x : Entry) :
    (s.insertEntry x).time = s.time := rfl
@[simp] theorem State.insertEntry_seq (s : State) (x : Entry) :
    (s.insertEntry x).seq = s.seq := rfl
@[simp] theorem State.insertEntry_records (s : State) (x : Entry) :
    (s.insertEntry x).records = s.records := rfl
@[simp] theorem State.insertEntry_runState (s : State) (x : Entry) :
    (s.insertEntry x).runState = s.runState := rfl
@[simp] theorem State.insertEntry_budget (s : State) (x : Entry) :
    (s.insertEntry x).budget = s.budget := rfl
@[simp] theorem State.insertEntry_stopRecord (s : State) (x : Entry) :
    (s.insertEntry x).stopRecord = s.stopRecord := rfl
@[simp] theorem State.insertEntry_furtherFaults (s : State) (x : Entry) :
    (s.insertEntry x).furtherFaults = s.furtherFaults := rfl
@[simp] theorem State.insertEntry_boards (s : State) (x : Entry) :
    (s.insertEntry x).boards = s.boards := rfl
@[simp] theorem State.insertEntry_pointer (s : State) (x : Entry) :
    (s.insertEntry x).pointer = s.pointer := rfl
@[simp] theorem State.insertEntry_escalation (s : State) (x : Entry) :
    (s.insertEntry x).escalation = s.escalation := rfl
@[simp] theorem State.insertEntry_slot (s : State) (x : Entry) :
    (s.insertEntry x).slot = s.slot := rfl
@[simp] theorem State.insertEntry_listCursor (s : State) (x : Entry) :
    (s.insertEntry x).listCursor = s.listCursor := rfl
@[simp] theorem State.insertEntry_frame (s : State) (x : Entry) :
    (s.insertEntry x).frame = s.frame := rfl
@[simp] theorem State.insertEntry_sdo (s : State) (x : Entry) :
    (s.insertEntry x).sdo = s.sdo := rfl
@[simp] theorem State.insertEntry_filterK (s : State) (x : Entry) :
    (s.insertEntry x).filterK = s.filterK := rfl
@[simp] theorem State.insertEntry_escalationE (s : State) (x : Entry) :
    (s.insertEntry x).escalationE = s.escalationE := rfl
@[simp] theorem State.insertEntry_events (s : State) (x : Entry) :
    (s.insertEntry x).events = s.events := rfl
@[simp] theorem State.insertEntry_mask (s : State) (x : Entry) :
    (s.insertEntry x).mask = s.mask := rfl
@[simp] theorem State.insertEntry_freeCount (s : State) (x : Entry) :
    (s.insertEntry x).freeCount = s.freeCount := rfl
@[simp] theorem State.insertEntry_pending (s : State) (x : Entry) :
    (s.insertEntry x).pending = s.pending := rfl
@[simp] theorem State.domain_insertEntry (s : State) (x : Entry) (d' : DomainNo) :
    (s.insertEntry x).domain d' = s.domain d' := State.domain_of_records (State.insertEntry_records s x) d'
@[simp] theorem State.board_insertEntry (s : State) (x : Entry) (b' : BoardNo) :
    (s.insertEntry x).board b' = s.board b' := State.board_of_boards (State.insertEntry_boards s x) b'

@[simp] theorem State.rekey_phase (s : State) (x : Entry) :
    (s.rekey x).phase = s.phase := rfl
@[simp] theorem State.rekey_clock (s : State) (x : Entry) :
    (s.rekey x).clock = s.clock := rfl
@[simp] theorem State.rekey_haltAsserted (s : State) (x : Entry) :
    (s.rekey x).haltAsserted = s.haltAsserted := rfl
@[simp] theorem State.rekey_time (s : State) (x : Entry) :
    (s.rekey x).time = s.time := rfl
@[simp] theorem State.rekey_seq (s : State) (x : Entry) :
    (s.rekey x).seq = s.seq := rfl
@[simp] theorem State.rekey_records (s : State) (x : Entry) :
    (s.rekey x).records = s.records := rfl
@[simp] theorem State.rekey_runState (s : State) (x : Entry) :
    (s.rekey x).runState = s.runState := rfl
@[simp] theorem State.rekey_budget (s : State) (x : Entry) :
    (s.rekey x).budget = s.budget := rfl
@[simp] theorem State.rekey_stopRecord (s : State) (x : Entry) :
    (s.rekey x).stopRecord = s.stopRecord := rfl
@[simp] theorem State.rekey_furtherFaults (s : State) (x : Entry) :
    (s.rekey x).furtherFaults = s.furtherFaults := rfl
@[simp] theorem State.rekey_boards (s : State) (x : Entry) :
    (s.rekey x).boards = s.boards := rfl
@[simp] theorem State.rekey_pointer (s : State) (x : Entry) :
    (s.rekey x).pointer = s.pointer := rfl
@[simp] theorem State.rekey_escalation (s : State) (x : Entry) :
    (s.rekey x).escalation = s.escalation := rfl
@[simp] theorem State.rekey_slot (s : State) (x : Entry) :
    (s.rekey x).slot = s.slot := rfl
@[simp] theorem State.rekey_listCursor (s : State) (x : Entry) :
    (s.rekey x).listCursor = s.listCursor := rfl
@[simp] theorem State.rekey_frame (s : State) (x : Entry) :
    (s.rekey x).frame = s.frame := rfl
@[simp] theorem State.rekey_sdo (s : State) (x : Entry) :
    (s.rekey x).sdo = s.sdo := rfl
@[simp] theorem State.rekey_filterK (s : State) (x : Entry) :
    (s.rekey x).filterK = s.filterK := rfl
@[simp] theorem State.rekey_escalationE (s : State) (x : Entry) :
    (s.rekey x).escalationE = s.escalationE := rfl
@[simp] theorem State.rekey_events (s : State) (x : Entry) :
    (s.rekey x).events = s.events := rfl
@[simp] theorem State.rekey_mask (s : State) (x : Entry) :
    (s.rekey x).mask = s.mask := rfl
@[simp] theorem State.rekey_freeCount (s : State) (x : Entry) :
    (s.rekey x).freeCount = s.freeCount := rfl
@[simp] theorem State.rekey_pending (s : State) (x : Entry) :
    (s.rekey x).pending = s.pending := rfl
@[simp] theorem State.domain_rekey (s : State) (x : Entry) (d' : DomainNo) :
    (s.rekey x).domain d' = s.domain d' := State.domain_of_records (State.rekey_records s x) d'
@[simp] theorem State.board_rekey (s : State) (x : Entry) (b' : BoardNo) :
    (s.rekey x).board b' = s.board b' := State.board_of_boards (State.rekey_boards s x) b'

@[simp] theorem State.enqueue_phase (s : State) (b : BoardNo) (f : Frame) :
    (s.enqueue b f).phase = s.phase := rfl
@[simp] theorem State.enqueue_clock (s : State) (b : BoardNo) (f : Frame) :
    (s.enqueue b f).clock = s.clock := rfl
@[simp] theorem State.enqueue_haltAsserted (s : State) (b : BoardNo) (f : Frame) :
    (s.enqueue b f).haltAsserted = s.haltAsserted := rfl
@[simp] theorem State.enqueue_time (s : State) (b : BoardNo) (f : Frame) :
    (s.enqueue b f).time = s.time := rfl
@[simp] theorem State.enqueue_seq (s : State) (b : BoardNo) (f : Frame) :
    (s.enqueue b f).seq = s.seq := rfl
@[simp] theorem State.enqueue_calendar (s : State) (b : BoardNo) (f : Frame) :
    (s.enqueue b f).calendar = s.calendar := rfl
@[simp] theorem State.enqueue_records (s : State) (b : BoardNo) (f : Frame) :
    (s.enqueue b f).records = s.records := rfl
@[simp] theorem State.enqueue_runState (s : State) (b : BoardNo) (f : Frame) :
    (s.enqueue b f).runState = s.runState := rfl
@[simp] theorem State.enqueue_budget (s : State) (b : BoardNo) (f : Frame) :
    (s.enqueue b f).budget = s.budget := rfl
@[simp] theorem State.enqueue_stopRecord (s : State) (b : BoardNo) (f : Frame) :
    (s.enqueue b f).stopRecord = s.stopRecord := rfl
@[simp] theorem State.enqueue_furtherFaults (s : State) (b : BoardNo) (f : Frame) :
    (s.enqueue b f).furtherFaults = s.furtherFaults := rfl
@[simp] theorem State.enqueue_pointer (s : State) (b : BoardNo) (f : Frame) :
    (s.enqueue b f).pointer = s.pointer := rfl
@[simp] theorem State.enqueue_escalation (s : State) (b : BoardNo) (f : Frame) :
    (s.enqueue b f).escalation = s.escalation := rfl
@[simp] theorem State.enqueue_slot (s : State) (b : BoardNo) (f : Frame) :
    (s.enqueue b f).slot = s.slot := rfl
@[simp] theorem State.enqueue_listCursor (s : State) (b : BoardNo) (f : Frame) :
    (s.enqueue b f).listCursor = s.listCursor := rfl
@[simp] theorem State.enqueue_frame (s : State) (b : BoardNo) (f : Frame) :
    (s.enqueue b f).frame = s.frame := rfl
@[simp] theorem State.enqueue_sdo (s : State) (b : BoardNo) (f : Frame) :
    (s.enqueue b f).sdo = s.sdo := rfl
@[simp] theorem State.enqueue_filterK (s : State) (b : BoardNo) (f : Frame) :
    (s.enqueue b f).filterK = s.filterK := rfl
@[simp] theorem State.enqueue_escalationE (s : State) (b : BoardNo) (f : Frame) :
    (s.enqueue b f).escalationE = s.escalationE := rfl
@[simp] theorem State.enqueue_events (s : State) (b : BoardNo) (f : Frame) :
    (s.enqueue b f).events = s.events := rfl
@[simp] theorem State.enqueue_mask (s : State) (b : BoardNo) (f : Frame) :
    (s.enqueue b f).mask = s.mask := rfl
@[simp] theorem State.enqueue_freeCount (s : State) (b : BoardNo) (f : Frame) :
    (s.enqueue b f).freeCount = s.freeCount := rfl
@[simp] theorem State.enqueue_pending (s : State) (b : BoardNo) (f : Frame) :
    (s.enqueue b f).pending = s.pending := rfl
@[simp] theorem State.domain_enqueue (s : State) (b : BoardNo) (f : Frame) (d' : DomainNo) :
    (s.enqueue b f).domain d' = s.domain d' := State.domain_of_records (State.enqueue_records s b f) d'

@[simp] theorem State.queueNotice_phase (s : State) (n : Notice) (dest : BoardSet) :
    (s.queueNotice n dest).phase = s.phase := by simp only [State.queueNotice, State.mapBoards]
@[simp] theorem State.queueNotice_clock (s : State) (n : Notice) (dest : BoardSet) :
    (s.queueNotice n dest).clock = s.clock := by simp only [State.queueNotice, State.mapBoards]
@[simp] theorem State.queueNotice_haltAsserted (s : State) (n : Notice) (dest : BoardSet) :
    (s.queueNotice n dest).haltAsserted = s.haltAsserted := by simp only [State.queueNotice, State.mapBoards]
@[simp] theorem State.queueNotice_time (s : State) (n : Notice) (dest : BoardSet) :
    (s.queueNotice n dest).time = s.time := by simp only [State.queueNotice, State.mapBoards]
@[simp] theorem State.queueNotice_seq (s : State) (n : Notice) (dest : BoardSet) :
    (s.queueNotice n dest).seq = s.seq := by simp only [State.queueNotice, State.mapBoards]
@[simp] theorem State.queueNotice_calendar (s : State) (n : Notice) (dest : BoardSet) :
    (s.queueNotice n dest).calendar = s.calendar := by simp only [State.queueNotice, State.mapBoards]
@[simp] theorem State.queueNotice_records (s : State) (n : Notice) (dest : BoardSet) :
    (s.queueNotice n dest).records = s.records := by simp only [State.queueNotice, State.mapBoards]
@[simp] theorem State.queueNotice_runState (s : State) (n : Notice) (dest : BoardSet) :
    (s.queueNotice n dest).runState = s.runState := by simp only [State.queueNotice, State.mapBoards]
@[simp] theorem State.queueNotice_budget (s : State) (n : Notice) (dest : BoardSet) :
    (s.queueNotice n dest).budget = s.budget := by simp only [State.queueNotice, State.mapBoards]
@[simp] theorem State.queueNotice_stopRecord (s : State) (n : Notice) (dest : BoardSet) :
    (s.queueNotice n dest).stopRecord = s.stopRecord := by simp only [State.queueNotice, State.mapBoards]
@[simp] theorem State.queueNotice_furtherFaults (s : State) (n : Notice) (dest : BoardSet) :
    (s.queueNotice n dest).furtherFaults = s.furtherFaults := by simp only [State.queueNotice, State.mapBoards]
@[simp] theorem State.queueNotice_pointer (s : State) (n : Notice) (dest : BoardSet) :
    (s.queueNotice n dest).pointer = s.pointer := by simp only [State.queueNotice, State.mapBoards]
@[simp] theorem State.queueNotice_escalation (s : State) (n : Notice) (dest : BoardSet) :
    (s.queueNotice n dest).escalation = s.escalation := by simp only [State.queueNotice, State.mapBoards]
@[simp] theorem State.queueNotice_slot (s : State) (n : Notice) (dest : BoardSet) :
    (s.queueNotice n dest).slot = s.slot := by simp only [State.queueNotice, State.mapBoards]
@[simp] theorem State.queueNotice_listCursor (s : State) (n : Notice) (dest : BoardSet) :
    (s.queueNotice n dest).listCursor = s.listCursor := by simp only [State.queueNotice, State.mapBoards]
@[simp] theorem State.queueNotice_frame (s : State) (n : Notice) (dest : BoardSet) :
    (s.queueNotice n dest).frame = s.frame := by simp only [State.queueNotice, State.mapBoards]
@[simp] theorem State.queueNotice_sdo (s : State) (n : Notice) (dest : BoardSet) :
    (s.queueNotice n dest).sdo = s.sdo := by simp only [State.queueNotice, State.mapBoards]
@[simp] theorem State.queueNotice_filterK (s : State) (n : Notice) (dest : BoardSet) :
    (s.queueNotice n dest).filterK = s.filterK := by simp only [State.queueNotice, State.mapBoards]
@[simp] theorem State.queueNotice_escalationE (s : State) (n : Notice) (dest : BoardSet) :
    (s.queueNotice n dest).escalationE = s.escalationE := by simp only [State.queueNotice, State.mapBoards]
@[simp] theorem State.queueNotice_events (s : State) (n : Notice) (dest : BoardSet) :
    (s.queueNotice n dest).events = s.events := by simp only [State.queueNotice, State.mapBoards]
@[simp] theorem State.queueNotice_mask (s : State) (n : Notice) (dest : BoardSet) :
    (s.queueNotice n dest).mask = s.mask := by simp only [State.queueNotice, State.mapBoards]
@[simp] theorem State.queueNotice_freeCount (s : State) (n : Notice) (dest : BoardSet) :
    (s.queueNotice n dest).freeCount = s.freeCount := by simp only [State.queueNotice, State.mapBoards]
@[simp] theorem State.queueNotice_pending (s : State) (n : Notice) (dest : BoardSet) :
    (s.queueNotice n dest).pending = s.pending := by simp only [State.queueNotice, State.mapBoards]
@[simp] theorem State.domain_queueNotice (s : State) (n : Notice) (dest : BoardSet) (d' : DomainNo) :
    (s.queueNotice n dest).domain d' = s.domain d' := State.domain_of_records (State.queueNotice_records s n dest) d'

@[simp] theorem State.raise_phase (s : State) (e : Event) :
    (s.raise e).phase = s.phase := rfl
@[simp] theorem State.raise_clock (s : State) (e : Event) :
    (s.raise e).clock = s.clock := rfl
@[simp] theorem State.raise_haltAsserted (s : State) (e : Event) :
    (s.raise e).haltAsserted = s.haltAsserted := rfl
@[simp] theorem State.raise_time (s : State) (e : Event) :
    (s.raise e).time = s.time := rfl
@[simp] theorem State.raise_seq (s : State) (e : Event) :
    (s.raise e).seq = s.seq := rfl
@[simp] theorem State.raise_calendar (s : State) (e : Event) :
    (s.raise e).calendar = s.calendar := rfl
@[simp] theorem State.raise_records (s : State) (e : Event) :
    (s.raise e).records = s.records := rfl
@[simp] theorem State.raise_runState (s : State) (e : Event) :
    (s.raise e).runState = s.runState := rfl
@[simp] theorem State.raise_budget (s : State) (e : Event) :
    (s.raise e).budget = s.budget := rfl
@[simp] theorem State.raise_stopRecord (s : State) (e : Event) :
    (s.raise e).stopRecord = s.stopRecord := rfl
@[simp] theorem State.raise_furtherFaults (s : State) (e : Event) :
    (s.raise e).furtherFaults = s.furtherFaults := rfl
@[simp] theorem State.raise_boards (s : State) (e : Event) :
    (s.raise e).boards = s.boards := rfl
@[simp] theorem State.raise_pointer (s : State) (e : Event) :
    (s.raise e).pointer = s.pointer := rfl
@[simp] theorem State.raise_escalation (s : State) (e : Event) :
    (s.raise e).escalation = s.escalation := rfl
@[simp] theorem State.raise_slot (s : State) (e : Event) :
    (s.raise e).slot = s.slot := rfl
@[simp] theorem State.raise_listCursor (s : State) (e : Event) :
    (s.raise e).listCursor = s.listCursor := rfl
@[simp] theorem State.raise_frame (s : State) (e : Event) :
    (s.raise e).frame = s.frame := rfl
@[simp] theorem State.raise_sdo (s : State) (e : Event) :
    (s.raise e).sdo = s.sdo := rfl
@[simp] theorem State.raise_filterK (s : State) (e : Event) :
    (s.raise e).filterK = s.filterK := rfl
@[simp] theorem State.raise_escalationE (s : State) (e : Event) :
    (s.raise e).escalationE = s.escalationE := rfl
@[simp] theorem State.raise_mask (s : State) (e : Event) :
    (s.raise e).mask = s.mask := rfl
@[simp] theorem State.raise_freeCount (s : State) (e : Event) :
    (s.raise e).freeCount = s.freeCount := rfl
@[simp] theorem State.raise_pending (s : State) (e : Event) :
    (s.raise e).pending = s.pending := rfl
@[simp] theorem State.domain_raise (s : State) (e : Event) (d' : DomainNo) :
    (s.raise e).domain d' = s.domain d' := State.domain_of_records (State.raise_records s e) d'
@[simp] theorem State.board_raise (s : State) (e : Event) (b' : BoardNo) :
    (s.raise e).board b' = s.board b' := State.board_of_boards (State.raise_boards s e) b'

@[simp] theorem State.passTo_phase (s : State) (t : Nat) :
    (s.passTo t).phase = s.phase := rfl
@[simp] theorem State.passTo_haltAsserted (s : State) (t : Nat) :
    (s.passTo t).haltAsserted = s.haltAsserted := rfl
@[simp] theorem State.passTo_time (s : State) (t : Nat) :
    (s.passTo t).time = s.time := rfl
@[simp] theorem State.passTo_seq (s : State) (t : Nat) :
    (s.passTo t).seq = s.seq := rfl
@[simp] theorem State.passTo_calendar (s : State) (t : Nat) :
    (s.passTo t).calendar = s.calendar := rfl
@[simp] theorem State.passTo_records (s : State) (t : Nat) :
    (s.passTo t).records = s.records := rfl
@[simp] theorem State.passTo_runState (s : State) (t : Nat) :
    (s.passTo t).runState = s.runState := rfl
@[simp] theorem State.passTo_budget (s : State) (t : Nat) :
    (s.passTo t).budget = s.budget := rfl
@[simp] theorem State.passTo_stopRecord (s : State) (t : Nat) :
    (s.passTo t).stopRecord = s.stopRecord := rfl
@[simp] theorem State.passTo_furtherFaults (s : State) (t : Nat) :
    (s.passTo t).furtherFaults = s.furtherFaults := rfl
@[simp] theorem State.passTo_boards (s : State) (t : Nat) :
    (s.passTo t).boards = s.boards := rfl
@[simp] theorem State.passTo_pointer (s : State) (t : Nat) :
    (s.passTo t).pointer = s.pointer := rfl
@[simp] theorem State.passTo_escalation (s : State) (t : Nat) :
    (s.passTo t).escalation = s.escalation := rfl
@[simp] theorem State.passTo_slot (s : State) (t : Nat) :
    (s.passTo t).slot = s.slot := rfl
@[simp] theorem State.passTo_listCursor (s : State) (t : Nat) :
    (s.passTo t).listCursor = s.listCursor := rfl
@[simp] theorem State.passTo_frame (s : State) (t : Nat) :
    (s.passTo t).frame = s.frame := rfl
@[simp] theorem State.passTo_sdo (s : State) (t : Nat) :
    (s.passTo t).sdo = s.sdo := rfl
@[simp] theorem State.passTo_filterK (s : State) (t : Nat) :
    (s.passTo t).filterK = s.filterK := rfl
@[simp] theorem State.passTo_escalationE (s : State) (t : Nat) :
    (s.passTo t).escalationE = s.escalationE := rfl
@[simp] theorem State.passTo_events (s : State) (t : Nat) :
    (s.passTo t).events = s.events := rfl
@[simp] theorem State.passTo_mask (s : State) (t : Nat) :
    (s.passTo t).mask = s.mask := rfl
@[simp] theorem State.passTo_freeCount (s : State) (t : Nat) :
    (s.passTo t).freeCount = s.freeCount := rfl
@[simp] theorem State.passTo_pending (s : State) (t : Nat) :
    (s.passTo t).pending = s.pending := rfl
@[simp] theorem State.domain_passTo (s : State) (t : Nat) (d' : DomainNo) :
    (s.passTo t).domain d' = s.domain d' := State.domain_of_records (State.passTo_records s t) d'
@[simp] theorem State.board_passTo (s : State) (t : Nat) (b' : BoardNo) :
    (s.passTo t).board b' = s.board b' := State.board_of_boards (State.passTo_boards s t) b'

@[simp] theorem State.writeRecord_phase (s : State) (c : StopCause) (b : Option BoardNo) (d : Option DomainNo) (k : Option Byte) :
    (s.writeRecord c b d k).phase = s.phase := rfl
@[simp] theorem State.writeRecord_clock (s : State) (c : StopCause) (b : Option BoardNo) (d : Option DomainNo) (k : Option Byte) :
    (s.writeRecord c b d k).clock = s.clock := rfl
@[simp] theorem State.writeRecord_haltAsserted (s : State) (c : StopCause) (b : Option BoardNo) (d : Option DomainNo) (k : Option Byte) :
    (s.writeRecord c b d k).haltAsserted = s.haltAsserted := rfl
@[simp] theorem State.writeRecord_time (s : State) (c : StopCause) (b : Option BoardNo) (d : Option DomainNo) (k : Option Byte) :
    (s.writeRecord c b d k).time = s.time := rfl
@[simp] theorem State.writeRecord_seq (s : State) (c : StopCause) (b : Option BoardNo) (d : Option DomainNo) (k : Option Byte) :
    (s.writeRecord c b d k).seq = s.seq := rfl
@[simp] theorem State.writeRecord_calendar (s : State) (c : StopCause) (b : Option BoardNo) (d : Option DomainNo) (k : Option Byte) :
    (s.writeRecord c b d k).calendar = s.calendar := rfl
@[simp] theorem State.writeRecord_records (s : State) (c : StopCause) (b : Option BoardNo) (d : Option DomainNo) (k : Option Byte) :
    (s.writeRecord c b d k).records = s.records := rfl
@[simp] theorem State.writeRecord_runState (s : State) (c : StopCause) (b : Option BoardNo) (d : Option DomainNo) (k : Option Byte) :
    (s.writeRecord c b d k).runState = s.runState := rfl
@[simp] theorem State.writeRecord_budget (s : State) (c : StopCause) (b : Option BoardNo) (d : Option DomainNo) (k : Option Byte) :
    (s.writeRecord c b d k).budget = s.budget := rfl
@[simp] theorem State.writeRecord_furtherFaults (s : State) (c : StopCause) (b : Option BoardNo) (d : Option DomainNo) (k : Option Byte) :
    (s.writeRecord c b d k).furtherFaults = s.furtherFaults := rfl
@[simp] theorem State.writeRecord_boards (s : State) (c : StopCause) (b : Option BoardNo) (d : Option DomainNo) (k : Option Byte) :
    (s.writeRecord c b d k).boards = s.boards := rfl
@[simp] theorem State.writeRecord_pointer (s : State) (c : StopCause) (b : Option BoardNo) (d : Option DomainNo) (k : Option Byte) :
    (s.writeRecord c b d k).pointer = s.pointer := rfl
@[simp] theorem State.writeRecord_escalation (s : State) (c : StopCause) (b : Option BoardNo) (d : Option DomainNo) (k : Option Byte) :
    (s.writeRecord c b d k).escalation = s.escalation := rfl
@[simp] theorem State.writeRecord_slot (s : State) (c : StopCause) (b : Option BoardNo) (d : Option DomainNo) (k : Option Byte) :
    (s.writeRecord c b d k).slot = s.slot := rfl
@[simp] theorem State.writeRecord_listCursor (s : State) (c : StopCause) (b : Option BoardNo) (d : Option DomainNo) (k : Option Byte) :
    (s.writeRecord c b d k).listCursor = s.listCursor := rfl
@[simp] theorem State.writeRecord_frame (s : State) (c : StopCause) (b : Option BoardNo) (d : Option DomainNo) (k : Option Byte) :
    (s.writeRecord c b d k).frame = s.frame := rfl
@[simp] theorem State.writeRecord_sdo (s : State) (c : StopCause) (b : Option BoardNo) (d : Option DomainNo) (k : Option Byte) :
    (s.writeRecord c b d k).sdo = s.sdo := rfl
@[simp] theorem State.writeRecord_filterK (s : State) (c : StopCause) (b : Option BoardNo) (d : Option DomainNo) (k : Option Byte) :
    (s.writeRecord c b d k).filterK = s.filterK := rfl
@[simp] theorem State.writeRecord_escalationE (s : State) (c : StopCause) (b : Option BoardNo) (d : Option DomainNo) (k : Option Byte) :
    (s.writeRecord c b d k).escalationE = s.escalationE := rfl
@[simp] theorem State.writeRecord_events (s : State) (c : StopCause) (b : Option BoardNo) (d : Option DomainNo) (k : Option Byte) :
    (s.writeRecord c b d k).events = s.events := rfl
@[simp] theorem State.writeRecord_mask (s : State) (c : StopCause) (b : Option BoardNo) (d : Option DomainNo) (k : Option Byte) :
    (s.writeRecord c b d k).mask = s.mask := rfl
@[simp] theorem State.writeRecord_freeCount (s : State) (c : StopCause) (b : Option BoardNo) (d : Option DomainNo) (k : Option Byte) :
    (s.writeRecord c b d k).freeCount = s.freeCount := rfl
@[simp] theorem State.writeRecord_pending (s : State) (c : StopCause) (b : Option BoardNo) (d : Option DomainNo) (k : Option Byte) :
    (s.writeRecord c b d k).pending = s.pending := rfl
@[simp] theorem State.domain_writeRecord (s : State) (c : StopCause) (b : Option BoardNo) (d : Option DomainNo) (k : Option Byte) (d' : DomainNo) :
    (s.writeRecord c b d k).domain d' = s.domain d' := State.domain_of_records (State.writeRecord_records s c b d k) d'
@[simp] theorem State.board_writeRecord (s : State) (c : StopCause) (b : Option BoardNo) (d : Option DomainNo) (k : Option Byte) (b' : BoardNo) :
    (s.writeRecord c b d k).board b' = s.board b' := State.board_of_boards (State.writeRecord_boards s c b d k) b'

@[simp] theorem State.disarmHoldTimers_phase (s : State) :
    (s.disarmHoldTimers).phase = s.phase := by simp only [State.disarmHoldTimers, State.mapBoards]
@[simp] theorem State.disarmHoldTimers_clock (s : State) :
    (s.disarmHoldTimers).clock = s.clock := by simp only [State.disarmHoldTimers, State.mapBoards]
@[simp] theorem State.disarmHoldTimers_haltAsserted (s : State) :
    (s.disarmHoldTimers).haltAsserted = s.haltAsserted := by simp only [State.disarmHoldTimers, State.mapBoards]
@[simp] theorem State.disarmHoldTimers_time (s : State) :
    (s.disarmHoldTimers).time = s.time := by simp only [State.disarmHoldTimers, State.mapBoards]
@[simp] theorem State.disarmHoldTimers_seq (s : State) :
    (s.disarmHoldTimers).seq = s.seq := by simp only [State.disarmHoldTimers, State.mapBoards]
@[simp] theorem State.disarmHoldTimers_calendar (s : State) :
    (s.disarmHoldTimers).calendar = s.calendar := by simp only [State.disarmHoldTimers, State.mapBoards]
@[simp] theorem State.disarmHoldTimers_records (s : State) :
    (s.disarmHoldTimers).records = s.records := by simp only [State.disarmHoldTimers, State.mapBoards]
@[simp] theorem State.disarmHoldTimers_runState (s : State) :
    (s.disarmHoldTimers).runState = s.runState := by simp only [State.disarmHoldTimers, State.mapBoards]
@[simp] theorem State.disarmHoldTimers_budget (s : State) :
    (s.disarmHoldTimers).budget = s.budget := by simp only [State.disarmHoldTimers, State.mapBoards]
@[simp] theorem State.disarmHoldTimers_stopRecord (s : State) :
    (s.disarmHoldTimers).stopRecord = s.stopRecord := by simp only [State.disarmHoldTimers, State.mapBoards]
@[simp] theorem State.disarmHoldTimers_furtherFaults (s : State) :
    (s.disarmHoldTimers).furtherFaults = s.furtherFaults := by simp only [State.disarmHoldTimers, State.mapBoards]
@[simp] theorem State.disarmHoldTimers_pointer (s : State) :
    (s.disarmHoldTimers).pointer = s.pointer := by simp only [State.disarmHoldTimers, State.mapBoards]
@[simp] theorem State.disarmHoldTimers_escalation (s : State) :
    (s.disarmHoldTimers).escalation = s.escalation := by simp only [State.disarmHoldTimers, State.mapBoards]
@[simp] theorem State.disarmHoldTimers_slot (s : State) :
    (s.disarmHoldTimers).slot = s.slot := by simp only [State.disarmHoldTimers, State.mapBoards]
@[simp] theorem State.disarmHoldTimers_listCursor (s : State) :
    (s.disarmHoldTimers).listCursor = s.listCursor := by simp only [State.disarmHoldTimers, State.mapBoards]
@[simp] theorem State.disarmHoldTimers_frame (s : State) :
    (s.disarmHoldTimers).frame = s.frame := by simp only [State.disarmHoldTimers, State.mapBoards]
@[simp] theorem State.disarmHoldTimers_sdo (s : State) :
    (s.disarmHoldTimers).sdo = s.sdo := by simp only [State.disarmHoldTimers, State.mapBoards]
@[simp] theorem State.disarmHoldTimers_filterK (s : State) :
    (s.disarmHoldTimers).filterK = s.filterK := by simp only [State.disarmHoldTimers, State.mapBoards]
@[simp] theorem State.disarmHoldTimers_escalationE (s : State) :
    (s.disarmHoldTimers).escalationE = s.escalationE := by simp only [State.disarmHoldTimers, State.mapBoards]
@[simp] theorem State.disarmHoldTimers_events (s : State) :
    (s.disarmHoldTimers).events = s.events := by simp only [State.disarmHoldTimers, State.mapBoards]
@[simp] theorem State.disarmHoldTimers_mask (s : State) :
    (s.disarmHoldTimers).mask = s.mask := by simp only [State.disarmHoldTimers, State.mapBoards]
@[simp] theorem State.disarmHoldTimers_freeCount (s : State) :
    (s.disarmHoldTimers).freeCount = s.freeCount := by simp only [State.disarmHoldTimers, State.mapBoards]
@[simp] theorem State.disarmHoldTimers_pending (s : State) :
    (s.disarmHoldTimers).pending = s.pending := by simp only [State.disarmHoldTimers, State.mapBoards]
@[simp] theorem State.domain_disarmHoldTimers (s : State) (d' : DomainNo) :
    (s.disarmHoldTimers).domain d' = s.domain d' := State.domain_of_records (State.disarmHoldTimers_records s) d'

@[simp] theorem State.endFrame_phase (s : State) (out : List Byte) :
    (s.endFrame out).phase = s.phase := rfl
@[simp] theorem State.endFrame_clock (s : State) (out : List Byte) :
    (s.endFrame out).clock = s.clock := rfl
@[simp] theorem State.endFrame_haltAsserted (s : State) (out : List Byte) :
    (s.endFrame out).haltAsserted = s.haltAsserted := rfl
@[simp] theorem State.endFrame_time (s : State) (out : List Byte) :
    (s.endFrame out).time = s.time := rfl
@[simp] theorem State.endFrame_seq (s : State) (out : List Byte) :
    (s.endFrame out).seq = s.seq := rfl
@[simp] theorem State.endFrame_calendar (s : State) (out : List Byte) :
    (s.endFrame out).calendar = s.calendar := rfl
@[simp] theorem State.endFrame_records (s : State) (out : List Byte) :
    (s.endFrame out).records = s.records := rfl
@[simp] theorem State.endFrame_runState (s : State) (out : List Byte) :
    (s.endFrame out).runState = s.runState := rfl
@[simp] theorem State.endFrame_budget (s : State) (out : List Byte) :
    (s.endFrame out).budget = s.budget := rfl
@[simp] theorem State.endFrame_stopRecord (s : State) (out : List Byte) :
    (s.endFrame out).stopRecord = s.stopRecord := rfl
@[simp] theorem State.endFrame_furtherFaults (s : State) (out : List Byte) :
    (s.endFrame out).furtherFaults = s.furtherFaults := rfl
@[simp] theorem State.endFrame_boards (s : State) (out : List Byte) :
    (s.endFrame out).boards = s.boards := rfl
@[simp] theorem State.endFrame_pointer (s : State) (out : List Byte) :
    (s.endFrame out).pointer = s.pointer := rfl
@[simp] theorem State.endFrame_escalation (s : State) (out : List Byte) :
    (s.endFrame out).escalation = s.escalation := rfl
@[simp] theorem State.endFrame_slot (s : State) (out : List Byte) :
    (s.endFrame out).slot = s.slot := rfl
@[simp] theorem State.endFrame_listCursor (s : State) (out : List Byte) :
    (s.endFrame out).listCursor = s.listCursor := rfl
@[simp] theorem State.endFrame_filterK (s : State) (out : List Byte) :
    (s.endFrame out).filterK = s.filterK := rfl
@[simp] theorem State.endFrame_escalationE (s : State) (out : List Byte) :
    (s.endFrame out).escalationE = s.escalationE := rfl
@[simp] theorem State.endFrame_events (s : State) (out : List Byte) :
    (s.endFrame out).events = s.events := rfl
@[simp] theorem State.endFrame_mask (s : State) (out : List Byte) :
    (s.endFrame out).mask = s.mask := rfl
@[simp] theorem State.endFrame_freeCount (s : State) (out : List Byte) :
    (s.endFrame out).freeCount = s.freeCount := rfl
@[simp] theorem State.endFrame_pending (s : State) (out : List Byte) :
    (s.endFrame out).pending = s.pending := rfl
@[simp] theorem State.domain_endFrame (s : State) (out : List Byte) (d' : DomainNo) :
    (s.endFrame out).domain d' = s.domain d' := State.domain_of_records (State.endFrame_records s out) d'
@[simp] theorem State.board_endFrame (s : State) (out : List Byte) (b' : BoardNo) :
    (s.endFrame out).board b' = s.board b' := State.board_of_boards (State.endFrame_boards s out) b'

@[simp] theorem State.stampSet_phase (s : State) (t : Nat) :
    (s.stampSet t).phase = s.phase := rfl
@[simp] theorem State.stampSet_clock (s : State) (t : Nat) :
    (s.stampSet t).clock = s.clock := rfl
@[simp] theorem State.stampSet_haltAsserted (s : State) (t : Nat) :
    (s.stampSet t).haltAsserted = s.haltAsserted := rfl
@[simp] theorem State.stampSet_calendar (s : State) (t : Nat) :
    (s.stampSet t).calendar = s.calendar := rfl
@[simp] theorem State.stampSet_records (s : State) (t : Nat) :
    (s.stampSet t).records = s.records := rfl
@[simp] theorem State.stampSet_runState (s : State) (t : Nat) :
    (s.stampSet t).runState = s.runState := rfl
@[simp] theorem State.stampSet_budget (s : State) (t : Nat) :
    (s.stampSet t).budget = s.budget := rfl
@[simp] theorem State.stampSet_stopRecord (s : State) (t : Nat) :
    (s.stampSet t).stopRecord = s.stopRecord := rfl
@[simp] theorem State.stampSet_furtherFaults (s : State) (t : Nat) :
    (s.stampSet t).furtherFaults = s.furtherFaults := rfl
@[simp] theorem State.stampSet_boards (s : State) (t : Nat) :
    (s.stampSet t).boards = s.boards := rfl
@[simp] theorem State.stampSet_pointer (s : State) (t : Nat) :
    (s.stampSet t).pointer = s.pointer := rfl
@[simp] theorem State.stampSet_escalation (s : State) (t : Nat) :
    (s.stampSet t).escalation = s.escalation := rfl
@[simp] theorem State.stampSet_slot (s : State) (t : Nat) :
    (s.stampSet t).slot = s.slot := rfl
@[simp] theorem State.stampSet_listCursor (s : State) (t : Nat) :
    (s.stampSet t).listCursor = s.listCursor := rfl
@[simp] theorem State.stampSet_frame (s : State) (t : Nat) :
    (s.stampSet t).frame = s.frame := rfl
@[simp] theorem State.stampSet_sdo (s : State) (t : Nat) :
    (s.stampSet t).sdo = s.sdo := rfl
@[simp] theorem State.stampSet_filterK (s : State) (t : Nat) :
    (s.stampSet t).filterK = s.filterK := rfl
@[simp] theorem State.stampSet_escalationE (s : State) (t : Nat) :
    (s.stampSet t).escalationE = s.escalationE := rfl
@[simp] theorem State.stampSet_events (s : State) (t : Nat) :
    (s.stampSet t).events = s.events := rfl
@[simp] theorem State.stampSet_mask (s : State) (t : Nat) :
    (s.stampSet t).mask = s.mask := rfl
@[simp] theorem State.stampSet_freeCount (s : State) (t : Nat) :
    (s.stampSet t).freeCount = s.freeCount := rfl
@[simp] theorem State.stampSet_pending (s : State) (t : Nat) :
    (s.stampSet t).pending = s.pending := rfl
@[simp] theorem State.domain_stampSet (s : State) (t : Nat) (d' : DomainNo) :
    (s.stampSet t).domain d' = s.domain d' := State.domain_of_records (State.stampSet_records s t) d'
@[simp] theorem State.board_stampSet (s : State) (t : Nat) (b' : BoardNo) :
    (s.stampSet t).board b' = s.board b' := State.board_of_boards (State.stampSet_boards s t) b'

@[simp] theorem State.moveArbiter_phase (s : State) (g : Grant) :
    (s.moveArbiter g).phase = s.phase := rfl
@[simp] theorem State.moveArbiter_clock (s : State) (g : Grant) :
    (s.moveArbiter g).clock = s.clock := rfl
@[simp] theorem State.moveArbiter_haltAsserted (s : State) (g : Grant) :
    (s.moveArbiter g).haltAsserted = s.haltAsserted := rfl
@[simp] theorem State.moveArbiter_time (s : State) (g : Grant) :
    (s.moveArbiter g).time = s.time := rfl
@[simp] theorem State.moveArbiter_seq (s : State) (g : Grant) :
    (s.moveArbiter g).seq = s.seq := rfl
@[simp] theorem State.moveArbiter_calendar (s : State) (g : Grant) :
    (s.moveArbiter g).calendar = s.calendar := rfl
@[simp] theorem State.moveArbiter_records (s : State) (g : Grant) :
    (s.moveArbiter g).records = s.records := rfl
@[simp] theorem State.moveArbiter_runState (s : State) (g : Grant) :
    (s.moveArbiter g).runState = s.runState := rfl
@[simp] theorem State.moveArbiter_budget (s : State) (g : Grant) :
    (s.moveArbiter g).budget = s.budget := rfl
@[simp] theorem State.moveArbiter_stopRecord (s : State) (g : Grant) :
    (s.moveArbiter g).stopRecord = s.stopRecord := rfl
@[simp] theorem State.moveArbiter_furtherFaults (s : State) (g : Grant) :
    (s.moveArbiter g).furtherFaults = s.furtherFaults := rfl
@[simp] theorem State.moveArbiter_boards (s : State) (g : Grant) :
    (s.moveArbiter g).boards = s.boards := rfl
@[simp] theorem State.moveArbiter_slot (s : State) (g : Grant) :
    (s.moveArbiter g).slot = s.slot := rfl
@[simp] theorem State.moveArbiter_listCursor (s : State) (g : Grant) :
    (s.moveArbiter g).listCursor = s.listCursor := rfl
@[simp] theorem State.moveArbiter_frame (s : State) (g : Grant) :
    (s.moveArbiter g).frame = s.frame := rfl
@[simp] theorem State.moveArbiter_sdo (s : State) (g : Grant) :
    (s.moveArbiter g).sdo = s.sdo := rfl
@[simp] theorem State.moveArbiter_filterK (s : State) (g : Grant) :
    (s.moveArbiter g).filterK = s.filterK := rfl
@[simp] theorem State.moveArbiter_escalationE (s : State) (g : Grant) :
    (s.moveArbiter g).escalationE = s.escalationE := rfl
@[simp] theorem State.moveArbiter_events (s : State) (g : Grant) :
    (s.moveArbiter g).events = s.events := rfl
@[simp] theorem State.moveArbiter_mask (s : State) (g : Grant) :
    (s.moveArbiter g).mask = s.mask := rfl
@[simp] theorem State.moveArbiter_freeCount (s : State) (g : Grant) :
    (s.moveArbiter g).freeCount = s.freeCount := rfl
@[simp] theorem State.moveArbiter_pending (s : State) (g : Grant) :
    (s.moveArbiter g).pending = s.pending := rfl
@[simp] theorem State.domain_moveArbiter (s : State) (g : Grant) (d' : DomainNo) :
    (s.moveArbiter g).domain d' = s.domain d' := State.domain_of_records (State.moveArbiter_records s g) d'
@[simp] theorem State.board_moveArbiter (s : State) (g : Grant) (b' : BoardNo) :
    (s.moveArbiter g).board b' = s.board b' := State.board_of_boards (State.moveArbiter_boards s g) b'

@[simp] theorem State.putDone_phase (s : State) (c : Byte) (st : Status) (data : List Byte) :
    (s.putDone c st data).phase = s.phase := rfl
@[simp] theorem State.putDone_clock (s : State) (c : Byte) (st : Status) (data : List Byte) :
    (s.putDone c st data).clock = s.clock := rfl
@[simp] theorem State.putDone_haltAsserted (s : State) (c : Byte) (st : Status) (data : List Byte) :
    (s.putDone c st data).haltAsserted = s.haltAsserted := rfl
@[simp] theorem State.putDone_time (s : State) (c : Byte) (st : Status) (data : List Byte) :
    (s.putDone c st data).time = s.time := rfl
@[simp] theorem State.putDone_seq (s : State) (c : Byte) (st : Status) (data : List Byte) :
    (s.putDone c st data).seq = s.seq := rfl
@[simp] theorem State.putDone_calendar (s : State) (c : Byte) (st : Status) (data : List Byte) :
    (s.putDone c st data).calendar = s.calendar := rfl
@[simp] theorem State.putDone_records (s : State) (c : Byte) (st : Status) (data : List Byte) :
    (s.putDone c st data).records = s.records := rfl
@[simp] theorem State.putDone_runState (s : State) (c : Byte) (st : Status) (data : List Byte) :
    (s.putDone c st data).runState = s.runState := rfl
@[simp] theorem State.putDone_budget (s : State) (c : Byte) (st : Status) (data : List Byte) :
    (s.putDone c st data).budget = s.budget := rfl
@[simp] theorem State.putDone_stopRecord (s : State) (c : Byte) (st : Status) (data : List Byte) :
    (s.putDone c st data).stopRecord = s.stopRecord := rfl
@[simp] theorem State.putDone_furtherFaults (s : State) (c : Byte) (st : Status) (data : List Byte) :
    (s.putDone c st data).furtherFaults = s.furtherFaults := rfl
@[simp] theorem State.putDone_boards (s : State) (c : Byte) (st : Status) (data : List Byte) :
    (s.putDone c st data).boards = s.boards := rfl
@[simp] theorem State.putDone_pointer (s : State) (c : Byte) (st : Status) (data : List Byte) :
    (s.putDone c st data).pointer = s.pointer := rfl
@[simp] theorem State.putDone_escalation (s : State) (c : Byte) (st : Status) (data : List Byte) :
    (s.putDone c st data).escalation = s.escalation := rfl
@[simp] theorem State.putDone_listCursor (s : State) (c : Byte) (st : Status) (data : List Byte) :
    (s.putDone c st data).listCursor = s.listCursor := rfl
@[simp] theorem State.putDone_frame (s : State) (c : Byte) (st : Status) (data : List Byte) :
    (s.putDone c st data).frame = s.frame := rfl
@[simp] theorem State.putDone_sdo (s : State) (c : Byte) (st : Status) (data : List Byte) :
    (s.putDone c st data).sdo = s.sdo := rfl
@[simp] theorem State.putDone_filterK (s : State) (c : Byte) (st : Status) (data : List Byte) :
    (s.putDone c st data).filterK = s.filterK := rfl
@[simp] theorem State.putDone_escalationE (s : State) (c : Byte) (st : Status) (data : List Byte) :
    (s.putDone c st data).escalationE = s.escalationE := rfl
@[simp] theorem State.putDone_events (s : State) (c : Byte) (st : Status) (data : List Byte) :
    (s.putDone c st data).events = s.events := rfl
@[simp] theorem State.putDone_mask (s : State) (c : Byte) (st : Status) (data : List Byte) :
    (s.putDone c st data).mask = s.mask := rfl
@[simp] theorem State.putDone_freeCount (s : State) (c : Byte) (st : Status) (data : List Byte) :
    (s.putDone c st data).freeCount = s.freeCount := rfl
@[simp] theorem State.putDone_pending (s : State) (c : Byte) (st : Status) (data : List Byte) :
    (s.putDone c st data).pending = s.pending := rfl
@[simp] theorem State.domain_putDone (s : State) (c : Byte) (st : Status) (data : List Byte) (d' : DomainNo) :
    (s.putDone c st data).domain d' = s.domain d' := State.domain_of_records (State.putDone_records s c st data) d'
@[simp] theorem State.board_putDone (s : State) (c : Byte) (st : Status) (data : List Byte) (b' : BoardNo) :
    (s.putDone c st data).board b' = s.board b' := State.board_of_boards (State.putDone_boards s c st data) b'

/-! Reading a board entry or a record after an update -/

@[simp] theorem State.board_setBoard (s : State) (b c : BoardNo) (e : Board) :
    (s.setBoard b e).board c = if c = b then e else s.board c := by
  by_cases h : c = b
  · subst h; simp [State.setBoard, State.board]
  · have h' : b.val ≠ c.val := fun k => h (Fin.ext k.symm)
    simp [State.setBoard, State.board, h, h']

@[simp] theorem State.board_modifyBoard (s : State) (b c : BoardNo) (f : Board → Board) :
    (s.modifyBoard b f).board c = if c = b then f (s.board b) else s.board c := State.board_setBoard s b c _

@[simp] theorem State.board_mapBoards (s : State) (f : BoardNo → Board → Board) (c : BoardNo) :
    (s.mapBoards f).board c = f c (s.board c) := by
  simp [State.mapBoards, State.board]

@[simp] theorem State.domain_setDomain (s : State) (d e : DomainNo) (r : Option Domain) :
    (s.setDomain d r).domain e = if e = d then r else s.domain e := by
  by_cases h : e = d
  · subst h; simp [State.setDomain, State.domain]
  · have h' : d.val ≠ e.val := fun k => h (Fin.ext k.symm)
    simp [State.setDomain, State.domain, h, h']

@[simp] theorem State.domain_modifyDomain (s : State) (d e : DomainNo) (f : Domain → Domain) :
    (s.modifyDomain d f).domain e = if e = d then (s.domain d).map f else s.domain e :=
  State.domain_setDomain s d e _

@[simp] theorem State.domain_mapDomains (s : State) (f : DomainNo → Domain → Domain) (e : DomainNo) :
    (s.mapDomains f).domain e = (s.domain e).map (f e) := by
  simp [State.mapDomains, State.domain]

/-- Two board vectors that read alike are equal. -/
theorem boards_ext {u v : Vector Board 64} (h : ∀ b : BoardNo, u[b] = v[b]) : u = v := by
  apply Vector.ext
  intro i hi
  exact h ⟨i, hi⟩

theorem records_ext {u v : Vector (Option Domain) 48} (h : ∀ d : DomainNo, u[d] = v[d]) : u = v := by
  apply Vector.ext
  intro i hi
  exact h ⟨i, hi⟩

/-- The last of two writes to one record stands. -/
@[simp] theorem State.setDomain_setDomain (s : State) (d : DomainNo) (x y : Option Domain) :
    (s.setDomain d x).setDomain d y = s.setDomain d y := by
  simp [State.setDomain]

@[simp] theorem State.setBoard_setBoard (s : State) (b : BoardNo) (x y : Board) :
    (s.setBoard b x).setBoard b y = s.setBoard b y := by
  simp [State.setBoard]

/-- Writes to two records commute. -/
theorem State.setDomain_comm (s : State) {d e : DomainNo} (h : d ≠ e) (x y : Option Domain) :
    (s.setDomain d x).setDomain e y = (s.setDomain e y).setDomain d x := by
  have : d.val ≠ e.val := fun k => h (Fin.ext k)
  simp [State.setDomain, Vector.set_comm _ _ this]

@[simp] theorem State.board_disarmHoldTimers (s : State) (b : BoardNo) :
    s.disarmHoldTimers.board b = { s.board b with holdTimer := none } := State.board_mapBoards s _ b

@[simp] theorem State.board_queueNotice (s : State) (n : Notice) (dest : BoardSet) (b : BoardNo) :
    (s.queueNotice n dest).board b =
      if (s.board b).isLinked && Bits.has dest b then (s.board b).enqueue [.notice n] else s.board b :=
  State.board_mapBoards s _ b

/-! Quantifiers over members -/

theorem State.everyMember_iff (s : State) (p : Board → Bool) :
    s.everyMember p = true ↔ ∀ b, (s.board b).member = true → p (s.board b) = true := by
  simp [State.everyMember]

theorem State.anyMember_iff (s : State) : s.anyMember = true ↔ ∃ b, (s.board b).member = true := by
  simp [State.anyMember]

theorem State.drained_iff (s : State) :
    s.drained = true ↔ ∀ b, (s.board b).member = true → (s.board b).outstanding = 0 := by
  simp [State.drained, State.everyMember_iff]

theorem Board.isLinked_iff (e : Board) : e.isLinked = true ↔ e.link = .linked := by
  simp [Board.isLinked]

end Sys2Proof.Machine
end

