-- ==== Sys2Proof/Laws/Ops.lean ====
section
/-! SUPPORT. For each shared operation, what it does, said once: operand readers, the Edge Calendar, the service port's
command and the arbiter's grant, draining and halting, departures from LINKED, copies, holds, and the arithmetic of
first edges. -/

namespace Sys2Proof.Machine

open Sys2Proof.Safety

/-! Operand readers -/

theorem domainOf_of_val {x : Byte} {d : DomainNo} (h : x.toNat = d.val) : domainOf x = some d := by
  have hd := d.isLt
  simp only [domainOf]
  rw [dif_pos (by omega)]
  exact congrArg some (Fin.ext h)

theorem domainOf_of_ge {x : Byte} (h : 48 ≤ x.toNat) : domainOf x = none := by
  simp only [domainOf]
  rw [dif_neg (by omega)]

theorem boardOf_of_val {x : Byte} {b : BoardNo} (h : x.toNat = b.val) : boardOf x = some b := by
  have hb := b.isLt
  simp only [boardOf]
  rw [dif_pos (by omega)]
  exact congrArg some (Fin.ext h)

theorem boardOf_of_ge {x : Byte} (h : 64 ≤ x.toNat) : boardOf x = none := by
  simp only [boardOf]
  rw [dif_neg (by omega)]

theorem parseDomain_of_val {x : Byte} {d : DomainNo} (h : x.toNat = d.val) : parseDomain [x] = some d :=
  domainOf_of_val h

theorem parseDomain_of_ge {x : Byte} (h : 48 ≤ x.toNat) : parseDomain [x] = none := domainOf_of_ge h

theorem parseDomain_of_length {params : List Byte} (h : params.length ≠ 1) : parseDomain params = none := by
  match params with
  | [] => rfl
  | [_] => exact absurd rfl h
  | _ :: _ :: _ => rfl

theorem parseBoard_of_val {x : Byte} {b : BoardNo} (h : x.toNat = b.val) : parseBoard [x] = some b :=
  boardOf_of_val h

theorem parseBoard_of_ge {x : Byte} (h : 64 ≤ x.toNat) : parseBoard [x] = none := boardOf_of_ge h

theorem causeOf_of_le {x : Byte} (h : x.toNat ≤ 3) : causeOf x = some ⟨x.toNat, by omega⟩ := by
  simp only [causeOf]
  rw [dif_pos (by omega)]

theorem causeOf_of_gt {x : Byte} (h : 3 < x.toNat) : causeOf x = none := by
  simp only [causeOf]
  rw [dif_neg (by omega)]

/-! The record table -/

theorem State.withOwned_free {s : State} {who : Owner} {d : DomainNo} {k : Domain → Taken} (h : s.domain d = none) :
    s.withOwned who d k = s.refuse .noSuch := by
  simp only [State.withOwned, h]

theorem State.withOwned_allowed {s : State} {who : Owner} {d : DomainNo} {r : Domain} {k : Domain → Taken}
    (h : s.domain d = some r) (a : who = .service ∨ who = r.owner) : s.withOwned who d k = k r := by
  simp only [State.withOwned, h, if_pos a]

theorem State.withOwned_denied {s : State} {who : Owner} {d : DomainNo} {r : Domain} {k : Domain → Taken}
    (h : s.domain d = some r) (a : ¬ (who = .service ∨ who = r.owner)) :
    s.withOwned who d k = s.refuse .denied := by
  simp only [State.withOwned, h, if_neg a]

theorem State.withRecord_free {s : State} {d : DomainNo} {k : Domain → Taken} (h : s.domain d = none) :
    s.withRecord d k = s.refuse .noSuch := by
  simp only [State.withRecord, h]

theorem State.withRecord_some {s : State} {d : DomainNo} {r : Domain} {k : Domain → Taken}
    (h : s.domain d = some r) : s.withRecord d k = k r := by
  simp only [State.withRecord, h]

/-- The first number of a table that passes a test. -/
theorem find_allDomains {p : DomainNo → Bool} {d : DomainNo} (h : p d = true)
    (least : ∀ e : DomainNo, e.val < d.val → p e = false) : allDomains.find? p = some d := by
  rw [allDomains, List.find?_eq_some_iff_getElem]
  refine ⟨h, d.val, by simp, by simp, fun j hj => ?_⟩
  have := least ⟨j, by omega⟩ hj
  simpa using this

theorem State.lowestFree_eq {s : State} {d : DomainNo} (h : s.domain d = none)
    (least : ∀ e : DomainNo, e.val < d.val → s.domain e ≠ none) : s.lowestFree = some d :=
  find_allDomains (by simp [h]) fun e he => by
    simpa [Option.isNone_eq_false_iff, Option.isSome_iff_ne_none] using least e he

theorem State.lowestFree_none {s : State} (h : ∀ d, s.domain d ≠ none) : s.lowestFree = none := by
  simp only [State.lowestFree, List.find?_eq_none]
  intro d _
  simpa using h d

theorem State.lowestFree_isSome {s : State} (h : ∃ d, s.domain d = none) : ∃ d, s.lowestFree = some d := by
  obtain ⟨d, hd⟩ := h
  rw [← Option.isSome_iff_exists, State.lowestFree, List.find?_isSome]
  exact ⟨d, List.mem_finRange d, by simp [hd]⟩

theorem State.findLabel_none {s : State} {label : Nat} (h : ∀ d r, s.domain d = some r → r.label ≠ label) :
    s.findLabel label = none := by
  simp only [State.findLabel, List.find?_eq_none]
  intro d _
  cases hd : s.domain d with
  | none => simp
  | some r => simpa using h d r hd

theorem State.findLabel_isSome {s : State} {label : Nat} (h : ∃ d r, s.domain d = some r ∧ r.label = label) :
    (s.findLabel label).isSome = true := by
  obtain ⟨d, r, hd, hr⟩ := h
  rw [State.findLabel, List.find?_isSome]
  exact ⟨d, List.mem_finRange d, by simp [hd, hr]⟩

/-- A label held by one record is found in it. -/
theorem State.findLabel_eq {s : State} {d : DomainNo} {r : Domain} (h : s.domain d = some r)
    (only : ∀ e q, s.domain e = some q → q.label = r.label → e = d) : s.findLabel r.label = some d := by
  refine find_allDomains (by simp [h]) fun e he => ?_
  cases hq : s.domain e with
  | none => rfl
  | some q =>
    have : q.label ≠ r.label := fun k => by
      have := congrArg Fin.val (only e q hq k)
      omega
    simpa using this

theorem State.nextRecord_eq {s : State} {start : Nat} {d : DomainNo} {r : Domain} (h : s.domain d = some r)
    (from_ : start ≤ d.val) (least : ∀ e : DomainNo, start ≤ e.val → e.val < d.val → s.domain e = none) :
    s.nextRecord start = some d := by
  refine find_allDomains (by simp [h, from_]) fun e he => ?_
  by_cases hs : start ≤ e.val
  · simp [least e hs he]
  · simp [hs]

theorem State.nextRecord_none {s : State} {start : Nat} (h : ∀ e : DomainNo, start ≤ e.val → s.domain e = none) :
    s.nextRecord start = none := by
  simp only [State.nextRecord, List.find?_eq_none]
  intro e _
  by_cases hs : start ≤ e.val
  · simp [h e hs]
  · simp [hs]

/-- LIST and LIST FROM from a board, by the length of their parameters (R22, R162, R165, R185). -/
theorem State.refuseList_of_length {s : State} {params : List Byte} {n : Nat} (h : params.length = n) :
    s.refuseList params n = s.refuse .denied := by
  simp only [State.refuseList, if_pos h]

theorem State.refuseList_of_other {s : State} {params : List Byte} {n : Nat} (h : params.length ≠ n) :
    s.refuseList params n = s.refuse .badParam := by
  simp only [State.refuseList, if_neg h]

/-! A pair of records -/

/-- A primary becomes FREE alone (R56). -/
theorem State.freeDomain_primary {s : State} {d : DomainNo} {r : Domain} {p : Primary} (h : s.domain d = some r)
    (k : r.source = .primary p) : s.freeDomain d = s.setDomain d none := by
  obtain ⟨label, owner, source, level, generation, count, stop, life, subscribers⟩ := r
  subst k
  simp only [State.freeDomain, h]

/-- A companion becomes FREE, and its parent's companion field with it (R28, R56). -/
theorem State.freeDomain_companion {s : State} {d : DomainNo} {r parent : Domain} {c : Companion} {p : Primary}
    (h : s.domain d = some r) (k : r.source = .companion c) (l : s.domain c.parent = some parent)
    (m : parent.source = .primary p) :
    s.freeDomain d = (s.setDomain c.parent
      (some { parent with source := .primary { p with companion := none } })).setDomain d none := by
  obtain ⟨label, owner, source, level, generation, count, stop, life, subscribers⟩ := r
  subst k
  simp only [State.freeDomain, h, State.modifyDomain, l, Option.map_some, Domain.withCompanion, m]

/-- A companion's parent, when the pair is whole. -/
theorem State.parentOf_eq {s : State} {c : Companion} {parent : Domain} {p : Primary}
    (h : s.domain c.parent = some parent) (k : parent.source = .primary p) : s.parentOf c = some (parent, p) := by
  simp only [State.parentOf, h, k]

/-- A record has an ACTIVE companion (R52, R61). -/
theorem State.companionActive_iff {s : State} {r : Domain} : s.companionActive r = true ↔
    ∃ p c x, r.source = .primary p ∧ p.companion = some c ∧ s.domain c = some x ∧ x.isActive = true := by
  unfold State.companionActive Domain.companionNo
  cases hs : r.source with
  | companion c => simp
  | primary p =>
    cases hc : p.companion with
    | none => simp [hc]
    | some c =>
      cases hx : s.domain c with
      | none => simp [hc, hx]
      | some x => simp [hc, hx]

/-- The increment of a RISE reaches the stop count (R40, R41). -/
theorem Domain.reachesStop_iff {r : Domain} {a : StopAction} : r.reachesStop = some a ↔
    ∃ n, r.stop = some ⟨n, a⟩ ∧ r.count < 2 ^ 32 - 1 ∧ r.count + 1 = n := by
  unfold Domain.reachesStop countLimit
  rcases r.stop with _ | ⟨n, b⟩
  · simp
  · simp only [Option.some.injEq, StopSetting.mk.injEq]
    constructor
    · intro h
      split at h
      · exact ⟨n, ⟨rfl, by injection h⟩, by assumption⟩
      · exact nomatch h
    · rintro ⟨m, ⟨rfl, rfl⟩, h⟩
      rw [if_pos h]

/-! The Edge Calendar -/

theorem Calendar.mem_insert {x y : Entry} {c : List Entry} : x ∈ Calendar.insert y c ↔ x = y ∨ x ∈ c := by
  induction c with
  | nil => simp [Calendar.insert]
  | cons z zs ih =>
    simp only [Calendar.insert]
    split
    · simp
    · simp only [List.mem_cons, ih]
      tauto

theorem Calendar.mem_erase {x : Entry} {d : DomainNo} {c : List Entry} :
    x ∈ Calendar.erase d c ↔ x ∈ c ∧ x.domain ≠ d := by
  simp [Calendar.erase]

theorem Entry.before_iff {x y : Entry} :
    x.before y = true ↔ x.time < y.time ∨ (x.time = y.time ∧ x.domain.val < y.domain.val) := by
  simp [Entry.before]

theorem Entry.before_trans {x y z : Entry} (h : x.before y = true) (k : y.before z = true) : x.before z = true := by
  rw [Entry.before_iff] at *
  omega

theorem Entry.not_before_trans {x y z : Entry} (h : y.before x = false) (k : z.before y = false) :
    z.before x = false := by
  rw [← Bool.not_eq_true, Entry.before_iff] at *
  omega

theorem Entry.before_asymm {x y : Entry} (h : x.before y = true) : y.before x = false := by
  rw [← Bool.not_eq_true]
  rw [Entry.before_iff] at *
  omega

/-- Two entries of different domains are in one order or the other. -/
theorem Entry.before_total {x y : Entry} (h : x.domain ≠ y.domain) (k : x.before y = false) : y.before x = true := by
  have : x.domain.val ≠ y.domain.val := fun e => h (Fin.ext e)
  rw [← Bool.not_eq_true] at k
  rw [Entry.before_iff] at *
  omega

/-- Insertion keeps a calendar sorted. -/
theorem Calendar.sorted_insert {x : Entry} {c : List Entry} (h : c.Pairwise fun x y => y.before x = false) :
    (Calendar.insert x c).Pairwise fun x y => y.before x = false := by
  induction c with
  | nil => simp [Calendar.insert]
  | cons z zs ih =>
    rw [List.pairwise_cons] at h
    simp only [Calendar.insert]
    split
    · rename_i hb
      refine List.pairwise_cons.mpr ⟨fun y hy => ?_, List.pairwise_cons.mpr h⟩
      rcases List.mem_cons.mp hy with rfl | hy
      · exact Entry.before_asymm hb
      · exact Entry.not_before_trans (Entry.before_asymm hb) (h.1 y hy)
    · rename_i hb
      refine List.pairwise_cons.mpr ⟨fun y hy => ?_, ih h.2⟩
      rcases Calendar.mem_insert.mp hy with rfl | hy
      · simpa using hb
      · exact h.1 y hy

/-- Insertion of a domain that has no entry keeps the strict order. -/
theorem Calendar.strict_insert {x : Entry} {c : List Entry} (h : c.Pairwise fun x y => x.before y = true)
    (new : ∀ y ∈ c, y.domain ≠ x.domain) : (Calendar.insert x c).Pairwise fun x y => x.before y = true := by
  induction c with
  | nil => simp [Calendar.insert]
  | cons z zs ih =>
    rw [List.pairwise_cons] at h
    simp only [Calendar.insert]
    split
    · rename_i hb
      refine List.pairwise_cons.mpr ⟨fun y hy => ?_, List.pairwise_cons.mpr h⟩
      rcases List.mem_cons.mp hy with rfl | hy
      · exact hb
      · exact Entry.before_trans hb (h.1 y hy)
    · rename_i hb
      refine List.pairwise_cons.mpr ⟨fun y hy => ?_, ih h.2 fun y hy => new y (List.mem_cons_of_mem z hy)⟩
      rcases Calendar.mem_insert.mp hy with rfl | hy
      · exact Entry.before_total (fun e => new z (List.mem_cons_self) e.symm) (by simpa using hb)
      · exact h.1 y hy

theorem Calendar.insert_ne_nil (x : Entry) (c : List Entry) : Calendar.insert x c ≠ [] := by
  cases c with
  | nil => simp [Calendar.insert]
  | cons z zs => simp only [Calendar.insert]; split <;> simp

/-! The service port -/

/-- SDO is driven exactly while a frame is open (R170). -/
theorem State.sdoPin_eq_none {s : State} : s.sdoPin = none ↔ s.frame = none := by
  simp [State.sdoPin]

@[simp] theorem State.sdoPin_endFrame (s : State) (out : List Byte) : (s.endFrame out).sdoPin = none := rfl

theorem State.command_ready {s : State} {code : Byte} {length : Nat} {payload : List Byte}
    {body : List Byte → State → Answer} (h : s.frameStatus = .ready) (l : payload.length = length) :
    s.command code length payload body =
      (body payload (s.endFiller payload.length)).state.putDone code
        (body payload (s.endFiller payload.length)).status (body payload (s.endFiller payload.length)).data := by
  simp only [State.command, h, l, if_true]

theorem State.command_wrongLength {s : State} {code : Byte} {length : Nat} {payload : List Byte}
    {body : List Byte → State → Answer} (h : s.frameStatus = .ready) (l : payload.length ≠ length) :
    s.command code length payload body = answered s code .badParam [] payload.length := by
  simp [State.command, h, l, answered, State.putDone, State.endFiller, State.endFrame, PortStatus.byte]

theorem State.command_notReady {s : State} {code : Byte} {length : Nat} {payload : List Byte}
    {body : List Byte → State → Answer} (h : s.frameStatus ≠ .ready) :
    s.command code length payload body = s.endFiller payload.length := by
  simp only [State.command, h, if_false]

/-- A reply over the state a READY frame leaves is what `answered` says. -/
theorem State.putDone_endFiller {s : State} {code : Byte} {n : Nat} {status : Status} {data : List Byte}
    (h : s.frameStatus = .ready) : (s.endFiller n).putDone code status data = answered s code status data n := by
  simp [answered, State.putDone, State.endFiller, State.endFrame, PortStatus.byte, h]

/-- A command that a READY frame brings and a block answers, in the words of the statements. -/
theorem State.command_answers {s u : State} {code : Byte} {length : Nat} {payload : List Byte}
    {body : List Byte → State → Answer} {status : Status} {data : List Byte} (h : s.frameStatus = .ready)
    (l : payload.length = length) (hu : u.frameStatus = .ready)
    (hb : body payload (s.endFiller payload.length) = ⟨u.endFiller payload.length, status, data⟩) :
    s.command code length payload body = answered u code status data length := by
  rw [State.command_ready h l, hb, ← l]
  exact State.putDone_endFiller hu

/-! Bits on the service port, and a frame routed by its code (R170, R171, R175) -/

/-- Fewer than eight bits are no byte. -/
theorem Bytes.ofBits_short {l : List Bool} (h : l.length < 8) : Bytes.ofBits l = [] := by
  unfold Bytes.ofBits
  split
  · simp only [List.length_cons] at h
    omega
  · rfl

theorem Bytes.ofBits_bitsOf (x : Byte) (rest : List Bool) :
    Bytes.ofBits (Bytes.bitsOf x ++ rest) = x :: Bytes.ofBits rest := by
  refine congrArg (· :: Bytes.ofBits rest) ?_
  revert x
  decide +kernel

/-- A frame's bits, most-significant bit first, are its bytes, and bits beyond a whole byte are ignored. -/
theorem Bytes.ofBits_bits (l : List Byte) {extra : List Bool} (h : extra.length < 8) :
    Bytes.ofBits (Bytes.bits l ++ extra) = l := by
  induction l with
  | nil => exact Bytes.ofBits_short h
  | cons x l ih =>
    simp only [Bytes.bits, List.flatMap_cons, List.append_assoc] at ih ⊢
    rw [Bytes.ofBits_bitsOf, ih]

/-- A line that is steady through the LOW and the HIGH of each clock is read once a clock, at the rising edge. -/
theorem Bytes.sampled_clocks (bits : List Bool) (b : Bool) :
    Bytes.sampled b (bits.flatMap fun x => [(false, x), (true, x)]) = bits := by
  induction bits generalizing b with
  | nil => rfl
  | cons x bits ih =>
    simp only [List.flatMap_cons, List.cons_append, List.nil_append] at ih ⊢
    cases b <;> simp [Bytes.sampled, ih]

/-- A code that is none of R184's table. -/
theorem decodeServiceFrame_unknown {code : Byte} (h : Codes.known code = false) (payload : List Byte) :
    decodeServiceFrame (code :: payload) = .unknownCommandCode (some code) payload := by
  simp only [Codes.known, Codes.direct, Bool.or_eq_false_iff, List.contains_cons, List.contains_nil,
    beq_eq_false_iff_ne, ne_eq] at h
  simp only [decodeServiceFrame, h, Bool.false_eq_true, if_false]

/-- What a code and its payload can be: a record command, a code that is none, or one of the other commands. -/
theorem takeServiceFrame_cases {P : Result → Prop} {code : Byte} {payload : List Byte} {s : State}
    (record : ∀ k, RecordKind.ofCode code = some k → P (.next (s.recordFrame k code payload)))
    (unknown : Codes.known code = false → P (.next (s.unknownFrame code payload)))
    (run : code = Codes.run → P (execRun payload s))
    (step : code = Codes.step → P (execStep payload s))
    (stop : code = Codes.stop → P (execStop payload s))
    (clear : code = Codes.clear → P (execClear payload s))
    (rewind : code = Codes.rewind → P (execRewind payload s))
    (resync : code = Codes.resync → P (execResync payload s))
    (readRun : code = Codes.readRun → P (execReadRun payload s))
    (admitBoard : code = Codes.admitBoard → P (execAdmitBoard payload s))
    (expel : code = Codes.expel → P (execExpel payload s))
    (retrain : code = Codes.retrain → P (execRetrain payload s))
    (setBoard : code = Codes.setBoard → P (execSetBoard payload s))
    (readBoard : code = Codes.readBoard → P (execReadBoard payload s))
    (setCabinet : code = Codes.setCabinet → P (execSetCabinet payload s))
    (identify : code = Codes.identify → P (execIdentify payload s))
    (softReset : code = Codes.softReset → P (execSoftReset payload s))
    (readEvents : code = Codes.readEvents → P (execReadEvents payload s))
    (setMask : code = Codes.setMask → P (execSetMask payload s))
    (readReply : code = Codes.readReply → P (execReadReply payload.length s)) :
    P (takeServiceFrame code payload s) := by
  cases e : RecordKind.ofCode code with
  | some k =>
    have h : takeServiceFrame code payload s = .next (s.recordFrame k code payload) := by
      simp only [takeServiceFrame, e]
    exact h ▸ record k e
  | none =>
    by_cases d : code ∈ Codes.direct
    · simp only [Codes.direct, List.mem_cons, List.not_mem_nil, or_false] at d
      rcases d with d | d | d | d | d | d | d | d | d | d | d | d | d | d | d | d | d | d
      · subst d; exact run rfl
      · subst d; exact step rfl
      · subst d; exact stop rfl
      · subst d; exact clear rfl
      · subst d; exact rewind rfl
      · subst d; exact resync rfl
      · subst d; exact readRun rfl
      · subst d; exact admitBoard rfl
      · subst d; exact expel rfl
      · subst d; exact retrain rfl
      · subst d; exact setBoard rfl
      · subst d; exact readBoard rfl
      · subst d; exact setCabinet rfl
      · subst d; exact identify rfl
      · subst d; exact softReset rfl
      · subst d; exact readEvents rfl
      · subst d; exact setMask rfl
      · subst d; exact readReply rfl
    · have h : takeServiceFrame code payload s = .next (s.unknownFrame code payload) := by
        simp only [Codes.direct, List.mem_cons, List.not_mem_nil, or_false, not_or] at d
        simp only [takeServiceFrame, e, d, if_false]
      exact h ▸ unknown (by simp [Codes.known, e, d])

/-- A code and its payload, under either row that carries a code, act as the command that the frame is. -/
theorem takeServiceFrame_eq (code : Byte) (payload : List Byte) (s : State) :
    takeServiceFrame code payload s = exec (decodeServiceFrame (code :: payload)) s := by
  cases e : (RecordKind.ofCode code).isSome
  · by_cases d : code ∈ Codes.direct
    · simp only [Codes.direct, List.mem_cons, List.not_mem_nil, or_false] at d
      rcases d with d | d | d | d | d | d | d | d | d | d | d | d | d | d | d | d | d | d <;> subst d <;> rfl
    · rw [decodeServiceFrame_unknown (by simp [Codes.known, e, d])]
      rfl
  · simp only [decodeServiceFrame, e, if_true]
    rfl

theorem execRecordCommandEntersSlot_of_kind {code : Byte} {k : RecordKind} (h : RecordKind.ofCode code = some k)
    (payload : List Byte) (s : State) :
    execRecordCommandEntersSlot code payload s = .next (s.recordFrame k code payload) := by
  simp only [execRecordCommandEntersSlot, takeServiceFrame, h]

theorem execUnknownCommandCode_of_unknown {code : Byte} (h : Codes.known code = false) (payload : List Byte) (s : State) :
    execUnknownCommandCode (some code) payload s = .next (s.unknownFrame code payload) := by
  have r : RecordKind.ofCode code = none := by
    cases e : RecordKind.ofCode code <;> simp_all [Codes.known]
  simp only [Codes.known, Codes.direct, Bool.or_eq_false_iff, List.contains_cons, List.contains_nil,
    beq_eq_false_iff_ne, ne_eq] at h
  simp only [execUnknownCommandCode, takeServiceFrame, r, h, if_false]

/-! The arbiter -/

/-- A grant of the arbiter's next request, of its kind, in the words of the statements. -/
theorem State.grantOf_next {s : State} {g : Grant} {k : RecordKind} {params : List Byte}
    {body : Owner → List Byte → State → Taken} {effect : State → State} {status : Status} {data : List Byte}
    {notices : List (Notice × BoardSet)} (h : NextRequest s g k params)
    (e : body g.requester.owner params (s.moveArbiter g) =
      ⟨effect (s.moveArbiter g), status, data, notices⟩) :
    s.grantOf k body = .next (granted s g effect status data notices) := by
  have hk : RecordKind.ofCode g.code = some k := by
    rw [h.code]
    cases k <;> decide
  simp only [State.grantOf, h.next, hk, if_true, State.grant, h.params, e, granted]

/-- A grant of a request of another kind is not made. -/
theorem State.grantOf_other {s : State} {k : RecordKind} {body : Owner → List Byte → State → Taken}
    (h : ∀ g, s.nextGrant = some g → RecordKind.ofCode g.code ≠ some k) : s.grantOf k body = .next s := by
  unfold State.grantOf
  cases hg : s.nextGrant with
  | none => rfl
  | some g => simp only [if_neg (h g hg)]

/-- The slot a board is granted from is WAITING. -/
theorem Board.waitingTag_slot {e : Board} {t : Tag} (h : e.waitingTag = some t) :
    ∃ kind params, e.slot t = .waiting kind params := by
  unfold Board.waitingTag at h
  split at h
  · rename_i kind params h0
    injection h with h
    exact ⟨kind, params, h ▸ h0⟩
  · rename_i kind params h1 _
    injection h with h
    exact ⟨kind, params, h ▸ h1⟩
  · exact absurd h (by simp)

theorem State.boardGrant_of_waiting {s : State} {b : BoardNo} {t : Tag} (h : (s.board b).waitingTag = some t) :
    ∃ kind params, (s.board b).slot t = .waiting kind params ∧
      s.boardGrant b = some ⟨.board b t, kind.setWidth 8, params, b + 1, 0⟩ := by
  obtain ⟨kind, params, hs⟩ := Board.waitingTag_slot h
  exact ⟨kind, params, hs, by simp only [State.boardGrant, h, hs]⟩

/-- The search for a board finds none exactly when no board request waits. -/
theorem State.nextBoard_none {s : State} : s.nextBoard = none ↔ ∀ b, (s.board b).waitingTag = none := by
  simp only [State.nextBoard, List.find?_eq_none, List.mem_map, allBoards, List.mem_finRange, true_and,
    forall_exists_index, forall_apply_eq_imp_iff, Bool.not_eq_true, Option.isSome_eq_false_iff, Option.isNone_iff_eq_none]
  constructor
  · intro h b
    have := h (b - s.pointer)
    simpa using this
  · intro h i
    exact h _

theorem State.nextBoard_waits {s : State} {b : BoardNo} (h : s.nextBoard = some b) :
    ∃ t, (s.board b).waitingTag = some t :=
  Option.isSome_iff_exists.mp (List.find?_some (p := fun b => (s.board b).waitingTag.isSome) h)

/-! Draining and halting -/

theorem State.drained_eq_membersClear {s : State} : s.drained = true ↔ membersClear s := s.drained_iff

theorem State.drained_disarmHoldTimers {s : State} : s.disarmHoldTimers.drained = true ↔ membersClear s := by
  rw [State.drained_iff]
  simp only [State.board_disarmHoldTimers]
  exact Iff.rfl

/-- Membership and counts are read through the board entries. -/
theorem membersClear_of_boards {s t : State} (h : s.boards = t.boards) : membersClear s ↔ membersClear t := by
  simp only [membersClear, State.board_of_boards h]

/-- What a draining writes while a member has sets outstanding (R98, R100, R154). -/
theorem State.enterDraining_waits {s : State} {cause : StopCause} {x : Option BoardNo} {d : Option DomainNo}
    {k : Option Byte} (h : ¬ membersClear s) :
    s.enterDraining cause x d k = { s with
      runState := .draining
      stopRecord := ⟨cause, x, d, k, s.time, s.seq⟩
      boards := holdTimersOff s } := by
  unfold State.enterDraining State.completeDraining
  rw [if_neg fun hd => h ((membersClear_of_boards (by rfl)).mp (State.drained_disarmHoldTimers.mp hd.2))]
  simp only [State.disarmHoldTimers, State.mapBoards, State.writeRecord, holdTimersOff, State.board]

/-- A draining that every member lets complete at once (R98). -/
theorem State.enterDraining_completes {s : State} {cause : StopCause} {x : Option BoardNo} {d : Option DomainNo}
    {k : Option Byte} (h : membersClear s) :
    s.enterDraining cause x d k = { s with
      runState := .stopped
      stopRecord := ⟨cause, x, d, k, s.time, s.seq⟩
      boards := holdTimersOff s
      events := { s.events with stopped := true } } := by
  unfold State.enterDraining State.completeDraining
  rw [if_pos ⟨by simp only [State.disarmHoldTimers_runState, State.writeRecord_runState],
    State.drained_disarmHoldTimers.mpr ((membersClear_of_boards (by rfl)).mpr h)⟩]
  simp only [State.disarmHoldTimers, State.mapBoards, State.writeRecord, holdTimersOff, State.board, State.raise,
    Events.raise]

/-- Entry to DRAINING in one form, whether or not it completes at once: the run is not RUNNING after it, and nothing but
the run state, the record, the hold timers and STOPPED is written (R98, R100, R154). -/
theorem State.enterDraining_form (s : State) (cause : StopCause) (x : Option BoardNo) (d : Option DomainNo)
    (k : Option Byte) : ∃ run record events,
    s.enterDraining cause x d k = { s with
      runState := run, stopRecord := record, boards := holdTimersOff s, events := events } ∧
    run ≠ .running ∧
    (events = s.events ∨ events = { s.events with stopped := true } ∧ membersClear s) := by
  by_cases h : membersClear s
  · exact ⟨.stopped, _, _, State.enterDraining_completes h, by decide, .inr ⟨rfl, h⟩⟩
  · exact ⟨.draining, _, _, State.enterDraining_waits h, by decide, .inl rfl⟩

/-- Arming the members' hold timers touches nothing that a draining reads or keeps (R154). -/
theorem State.holdTimersOff_armMembers (s : State) : holdTimersOff s.armMembers = holdTimersOff s := by
  apply Vector.ext
  intro i hi
  simp only [holdTimersOff, State.armMembers, State.board_mapBoards, Vector.getElem_ofFn]
  split
  · unfold Board.armHoldTimer
    split <;> rfl
  · rfl

theorem State.membersClear_armMembers (s : State) : membersClear s.armMembers ↔ membersClear s := by
  unfold membersClear State.armMembers
  refine forall_congr' fun b => ?_
  simp only [State.board_mapBoards]
  split
  · unfold Board.armHoldTimer
    split <;> rfl
  · rfl

/-- A run taken over an empty calendar drains at once, and completes when every member lets it (R94, R98). -/
theorem State.startRun_empty (s : State) (b : Budget) (h : s.calendar = []) :
    (membersClear s → s.startRun b = { s with
      budget := b
      runState := .stopped
      stopRecord := ⟨.noEdges, none, none, none, s.time, s.seq⟩
      boards := holdTimersOff s
      events := { s.events with stopped := true } }) ∧
    (¬ membersClear s → s.startRun b = { s with
      budget := b
      runState := .draining
      stopRecord := ⟨.noEdges, none, none, none, s.time, s.seq⟩
      boards := holdTimersOff s }) := by
  let w := ({ s with budget := b, runState := .running } : State).writeRecord .nothing none none none
  have e : s.startRun b = w.armMembers.enterDraining .noEdges none none none := if_pos h
  refine ⟨fun m => ?_, fun m => ?_⟩
  · rw [e, State.enterDraining_completes (w.membersClear_armMembers.mpr m), w.holdTimersOff_armMembers]
    rfl
  · rw [e, State.enterDraining_waits fun k => m (w.membersClear_armMembers.mp k), w.holdTimersOff_armMembers]
    rfl

/-- What entering HALTED writes (R102, R103, R154). -/
theorem State.enterHalted_eq (s : State) (cause : StopCause) (x : Option BoardNo) (k : Option Byte) :
    s.enterHalted cause x k = { s with
      runState := .halted
      stopRecord := ⟨cause, x, none, k, s.time, s.seq⟩
      boards := holdTimersOff s
      events := { s.events with halted := true } } := by
  simp only [State.enterHalted, State.disarmHoldTimers, State.mapBoards, State.writeRecord, holdTimersOff, State.board,
    State.raise, Events.raise]

/-! Training (R116, R117, R119) -/

/-- A round trip within the wait lies between 1 and 10000 units. -/
theorem Training.roundTrip_range {t : Training} {clock : Nat} (h : clock ≤ t.deadline) :
    1 ≤ t.roundTrip clock ∧ t.roundTrip clock ≤ 10000 := by
  simp only [Training.roundTrip, Training.deadline, Config.probeWait] at *
  omega

/-- An ECHO that is not late on the clock gives its own arrival as the round trip. -/
theorem Training.roundTrip_of_arrival {t : Training} {s : State} {arrival : Nat} (a : 1 ≤ arrival)
    (h : s.clock ≤ t.sent + arrival) : t.roundTrip (s.passTo (t.sent + arrival)).clock = arrival := by
  simp only [Training.roundTrip, State.passTo]
  omega

/-- Outside TRAINING no wait ends. -/
theorem State.awaitReception_other {s : State} {b : BoardNo} {instant : Nat}
    (h : ∀ t, (s.board b).link ≠ .training t) : s.awaitReception b instant = s := by
  unfold State.awaitReception
  split
  · rename_i t e
    exact absurd e (h t)
  all_goals rfl

/-- A reception within the wait comes to the probe that waits now. -/
theorem State.awaitReception_waiting {s : State} {b : BoardNo} {t : Training} {instant : Nat}
    (h : (s.board b).link = .training t) (w : instant ≤ t.deadline) : s.awaitReception b instant = s := by
  simp only [State.awaitReception, h, Training.probesLeft, State.endWaits, if_neg (Nat.not_lt.mpr w)]

/-- What the end of a wait keeps, the waits before a reception keep. -/
theorem State.endWaits_induction {P : State → Prop} {b : BoardNo} {instant : Nat}
    (wait : ∀ u t, P u → (u.board b).link = .training t → t.deadline < instant →
      P ((u.passTo t.deadline).probeMissing b t)) (n : Nat) {s : State} (h : P s) : P (s.endWaits b instant n) := by
  induction n generalizing s with
  | zero => exact h
  | succ n ih =>
    unfold State.endWaits
    split
    · rename_i t e
      split
      · exact ih (wait s t h e ‹_›)
      · exact h
    all_goals exact h

theorem State.awaitReception_induction {P : State → Prop} {b : BoardNo} {instant : Nat}
    (wait : ∀ u t, P u → (u.board b).link = .training t → t.deadline < instant →
      P ((u.passTo t.deadline).probeMissing b t)) {s : State} (h : P s) : P (s.awaitReception b instant) := by
  unfold State.awaitReception
  split
  · exact State.endWaits_induction wait _ h
  all_goals exact h

/-- A reception after the wait comes to what the end of the wait leaves. -/
theorem State.awaitReception_late {s : State} {b : BoardNo} {t : Training} {instant : Nat}
    (h : (s.board b).link = .training t) (w : t.deadline < instant) :
    s.awaitReception b instant = ((s.passTo t.deadline).probeMissing b t).awaitReception b instant := by
  conv => lhs; simp only [State.awaitReception, h, Training.probesLeft, State.endWaits, if_pos w]
  unfold State.probeMissing State.nextProbe
  split
  · rename_i n
    rw [Nat.sub_eq_zero_of_le n, State.awaitReception_other fun _ => by
      simp only [State.trainFailed, State.board_raise, State.board_modifyBoard, if_pos, ne_eq, reduceCtorEq,
        not_false_eq_true]]
    rfl
  · rename_i n
    simp only [State.awaitReception, State.board_modifyBoard, if_pos, Training.probesLeft]
    congr 1
    omega

/-- A bad frame in its three forms: it faults a LINKED board, it ends the probe that waits, and elsewhere it is nothing. -/
theorem State.badReception_linked {s : State} {b : BoardNo} {kind : FaultKind} (h : (s.board b).link = .linked) :
    s.badReception b kind = s.faultLinked b kind := by
  simp only [State.badReception, State.awaitReception, h]

theorem State.badReception_waiting {s : State} {b : BoardNo} {kind : FaultKind} {t : Training}
    (h : (s.board b).link = .training t) (w : s.clock ≤ t.deadline) :
    s.badReception b kind = s.probeMissing b t := by
  simp only [State.badReception, State.awaitReception_waiting h w, h]

theorem State.badReception_other {s : State} {b : BoardNo} {kind : FaultKind} (l : (s.board b).link ≠ .linked)
    (h : ∀ t, (s.board b).link ≠ .training t) : s.badReception b kind = s := by
  simp only [State.badReception, State.awaitReception_other h]
  split
  · exact absurd ‹_› l
  · exact absurd ‹_› (h _)
  all_goals rfl

/-- An ECHO after the wait is received by what the end of the wait leaves. -/
theorem State.receiveEcho_late {s : State} {b : BoardNo} {t : Training} {number code : Byte} {instant : Nat}
    (h : (s.board b).link = .training t) (w : t.deadline < instant) :
    s.receiveEcho b number code instant =
      ((s.passTo t.deadline).probeMissing b t).receiveEcho b number code instant := by
  simp only [State.receiveEcho, State.awaitReception_late h w]

/-! Copies and queues -/

@[simp] theorem State.board_deliver (s : State) (kind : SetKind) (time : Nat)
    (f : BoardNo → List (DomainNo × Level)) (b : BoardNo) :
    (s.deliver kind time f).board b =
      if (s.board b).member then
        (s.board b).receiveCopy s.clock (copyFrames kind s.seq time (s.board b).partSize (f b))
      else s.board b := State.board_mapBoards s _ b

/-- A delivery writes the board entries and nothing else. -/
theorem State.deliver_eq (s : State) (kind : SetKind) (time : Nat) (f : BoardNo → List (DomainNo × Level)) :
    s.deliver kind time f = { s with boards := (s.deliver kind time f).boards } := by
  simp only [State.deliver, State.mapBoards]

/-- Queueing notices writes the board entries and nothing else. -/
theorem State.queueNotices_eq (s : State) (l : List (Notice × BoardSet)) :
    s.queueNotices l = { s with boards := (s.queueNotices l).boards } := by
  unfold State.queueNotices
  induction l generalizing s with
  | nil => rfl
  | cons n l ih => rw [List.foldl_cons, ih (s.queueNotice n.1 n.2)]; simp only [State.queueNotice, State.mapBoards]

/-- What notices do to one board: each that is for it joins its queue, in order, while it is LINKED (R62, R63). -/
theorem State.board_queueNotices (s : State) (l : List (Notice × BoardSet)) (b : BoardNo) :
    (s.queueNotices l).board b =
      if (s.board b).isLinked then
        (s.board b).enqueue ((l.filter fun n => Bits.has n.2 b).map fun n => .notice n.1)
      else s.board b := by
  unfold State.queueNotices
  induction l generalizing s with
  | nil => simp [Board.enqueue]
  | cons n l ih =>
    rw [List.foldl_cons, ih (s.queueNotice n.1 n.2), State.board_queueNotice]
    cases hl : (s.board b).isLinked <;> cases hb : Bits.has n.2 b <;>
      simp_all [Board.enqueue, Board.isLinked]

/-- A copy is cut into the list it came from. -/
theorem cutInto_flatten (c fuel : Nat) (l : List (DomainNo × Level)) : (cutInto c fuel l).flatten = l := by
  induction fuel generalizing l with
  | zero => simp [cutInto]
  | succ n ih =>
    simp only [cutInto]
    split
    · simp
    · simp [ih]

theorem cutInto_ne_nil (c fuel : Nat) (l : List (DomainNo × Level)) : cutInto c fuel l ≠ [] := by
  cases fuel with
  | zero => simp [cutInto]
  | succ n => simp only [cutInto]; split <;> simp

theorem numberParts_length (kind : SetKind) (n : BitVec 16) (t i : Nat) (l : List (List (DomainNo × Level))) :
    (numberParts kind n t i l).length = l.length := by
  induction l generalizing i with
  | nil => rfl
  | cons x xs ih => simp [numberParts, ih]

/-! First edges (R6, R10) -/

theorem le_firstAtOrAfter (from_ r period : Nat) : from_ ≤ firstAtOrAfter from_ r period := by
  unfold firstAtOrAfter
  omega

theorem firstAtOrAfter_lt (from_ r : Nat) {period : Nat} (h : 0 < period) :
    firstAtOrAfter from_ r period < from_ + period := by
  unfold firstAtOrAfter
  have h1 := Int.emod_lt_of_pos ((r : Int) - (from_ : Int)) (show (0 : Int) < (period : Int) by omega)
  have h2 := Int.emod_nonneg ((r : Int) - (from_ : Int)) (show (period : Int) ≠ 0 by omega)
  omega

theorem firstAtOrAfter_mod (from_ r : Nat) {period : Nat} (h : 0 < period) :
    firstAtOrAfter from_ r period % period = r % period := by
  have h2 := Int.emod_nonneg ((r : Int) - (from_ : Int)) (show (period : Int) ≠ 0 by omega)
  have h3 : ((firstAtOrAfter from_ r period : Nat) : Int) = (from_ : Int) + ((r : Int) - (from_ : Int)) % (period : Int) := by
    unfold firstAtOrAfter
    omega
  have h4 : ((firstAtOrAfter from_ r period % period : Nat) : Int) = ((r % period : Nat) : Int) := by
    push_cast
    rw [h3, Int.add_emod, Int.emod_emod_of_dvd _ (dvd_refl (period : Int)), ← Int.add_emod]
    congr 1
    omega
  exact_mod_cast h4

/-- No earlier time is congruent. -/
theorem firstAtOrAfter_least (from_ r : Nat) {period u : Nat} (h : 0 < period) (hu : from_ ≤ u)
    (hm : u % period = r % period) : firstAtOrAfter from_ r period ≤ u := by
  by_contra hlt
  have hlt := Nat.lt_of_not_le hlt
  have h1 := firstAtOrAfter_lt from_ r h
  have h2 := firstAtOrAfter_mod from_ r h
  have h3 : (firstAtOrAfter from_ r period - u) % period = 0 :=
    Nat.sub_mod_eq_zero_of_mod_eq (by rw [h2, hm])
  rw [Nat.mod_eq_of_lt (by omega)] at h3
  omega

end Sys2Proof.Machine
end

