-- ==== Sys2Proof/Laws/Frames.lean ====
section
/-! SUPPORT. What the larger shared operations leave alone, field by field: draining, halting, departures from LINKED,
probes, copies, notices, replies and the freeing of a record. -/

namespace Sys2Proof.Machine

set_option Elab.async false

@[simp] theorem State.completeDraining_phase (s : State) :
    (s.completeDraining).phase = s.phase := by
  unfold State.completeDraining
  split <;> simp

@[simp] theorem State.completeDraining_clock (s : State) :
    (s.completeDraining).clock = s.clock := by
  unfold State.completeDraining
  split <;> simp

@[simp] theorem State.completeDraining_haltAsserted (s : State) :
    (s.completeDraining).haltAsserted = s.haltAsserted := by
  unfold State.completeDraining
  split <;> simp

@[simp] theorem State.completeDraining_time (s : State) :
    (s.completeDraining).time = s.time := by
  unfold State.completeDraining
  split <;> simp

@[simp] theorem State.completeDraining_seq (s : State) :
    (s.completeDraining).seq = s.seq := by
  unfold State.completeDraining
  split <;> simp

@[simp] theorem State.completeDraining_calendar (s : State) :
    (s.completeDraining).calendar = s.calendar := by
  unfold State.completeDraining
  split <;> simp

@[simp] theorem State.completeDraining_records (s : State) :
    (s.completeDraining).records = s.records := by
  unfold State.completeDraining
  split <;> simp

@[simp] theorem State.completeDraining_budget (s : State) :
    (s.completeDraining).budget = s.budget := by
  unfold State.completeDraining
  split <;> simp

@[simp] theorem State.completeDraining_stopRecord (s : State) :
    (s.completeDraining).stopRecord = s.stopRecord := by
  unfold State.completeDraining
  split <;> simp

@[simp] theorem State.completeDraining_furtherFaults (s : State) :
    (s.completeDraining).furtherFaults = s.furtherFaults := by
  unfold State.completeDraining
  split <;> simp

@[simp] theorem State.completeDraining_boards (s : State) :
    (s.completeDraining).boards = s.boards := by
  unfold State.completeDraining
  split <;> simp

@[simp] theorem State.completeDraining_pointer (s : State) :
    (s.completeDraining).pointer = s.pointer := by
  unfold State.completeDraining
  split <;> simp

@[simp] theorem State.completeDraining_escalation (s : State) :
    (s.completeDraining).escalation = s.escalation := by
  unfold State.completeDraining
  split <;> simp

@[simp] theorem State.completeDraining_slot (s : State) :
    (s.completeDraining).slot = s.slot := by
  unfold State.completeDraining
  split <;> simp

@[simp] theorem State.completeDraining_listCursor (s : State) :
    (s.completeDraining).listCursor = s.listCursor := by
  unfold State.completeDraining
  split <;> simp

@[simp] theorem State.completeDraining_frame (s : State) :
    (s.completeDraining).frame = s.frame := by
  unfold State.completeDraining
  split <;> simp

@[simp] theorem State.completeDraining_sdo (s : State) :
    (s.completeDraining).sdo = s.sdo := by
  unfold State.completeDraining
  split <;> simp

@[simp] theorem State.completeDraining_filterK (s : State) :
    (s.completeDraining).filterK = s.filterK := by
  unfold State.completeDraining
  split <;> simp

@[simp] theorem State.completeDraining_escalationE (s : State) :
    (s.completeDraining).escalationE = s.escalationE := by
  unfold State.completeDraining
  split <;> simp

@[simp] theorem State.completeDraining_mask (s : State) :
    (s.completeDraining).mask = s.mask := by
  unfold State.completeDraining
  split <;> simp

@[simp] theorem State.completeDraining_freeCount (s : State) :
    (s.completeDraining).freeCount = s.freeCount := by
  unfold State.completeDraining
  split <;> simp

@[simp] theorem State.completeDraining_pending (s : State) :
    (s.completeDraining).pending = s.pending := by
  unfold State.completeDraining
  split <;> simp

@[simp] theorem State.domain_completeDraining (s : State) (e : DomainNo) :
    (s.completeDraining).domain e = s.domain e := State.domain_of_records (State.completeDraining_records s) e

@[simp] theorem State.board_completeDraining (s : State) (c : BoardNo) :
    (s.completeDraining).board c = s.board c := State.board_of_boards (State.completeDraining_boards s) c

@[simp] theorem State.enterDraining_phase (s : State) (cause : StopCause) (x : Option BoardNo) (d : Option DomainNo) (k : Option Byte) :
    (s.enterDraining cause x d k).phase = s.phase := by
  simp [State.enterDraining]

@[simp] theorem State.enterDraining_clock (s : State) (cause : StopCause) (x : Option BoardNo) (d : Option DomainNo) (k : Option Byte) :
    (s.enterDraining cause x d k).clock = s.clock := by
  simp [State.enterDraining]

@[simp] theorem State.enterDraining_haltAsserted (s : State) (cause : StopCause) (x : Option BoardNo) (d : Option DomainNo) (k : Option Byte) :
    (s.enterDraining cause x d k).haltAsserted = s.haltAsserted := by
  simp [State.enterDraining]

@[simp] theorem State.enterDraining_time (s : State) (cause : StopCause) (x : Option BoardNo) (d : Option DomainNo) (k : Option Byte) :
    (s.enterDraining cause x d k).time = s.time := by
  simp [State.enterDraining]

@[simp] theorem State.enterDraining_seq (s : State) (cause : StopCause) (x : Option BoardNo) (d : Option DomainNo) (k : Option Byte) :
    (s.enterDraining cause x d k).seq = s.seq := by
  simp [State.enterDraining]

@[simp] theorem State.enterDraining_calendar (s : State) (cause : StopCause) (x : Option BoardNo) (d : Option DomainNo) (k : Option Byte) :
    (s.enterDraining cause x d k).calendar = s.calendar := by
  simp [State.enterDraining]

@[simp] theorem State.enterDraining_records (s : State) (cause : StopCause) (x : Option BoardNo) (d : Option DomainNo) (k : Option Byte) :
    (s.enterDraining cause x d k).records = s.records := by
  simp [State.enterDraining]

@[simp] theorem State.enterDraining_budget (s : State) (cause : StopCause) (x : Option BoardNo) (d : Option DomainNo) (k : Option Byte) :
    (s.enterDraining cause x d k).budget = s.budget := by
  simp [State.enterDraining]

@[simp] theorem State.enterDraining_furtherFaults (s : State) (cause : StopCause) (x : Option BoardNo) (d : Option DomainNo) (k : Option Byte) :
    (s.enterDraining cause x d k).furtherFaults = s.furtherFaults := by
  simp [State.enterDraining]

@[simp] theorem State.enterDraining_pointer (s : State) (cause : StopCause) (x : Option BoardNo) (d : Option DomainNo) (k : Option Byte) :
    (s.enterDraining cause x d k).pointer = s.pointer := by
  simp [State.enterDraining]

@[simp] theorem State.enterDraining_escalation (s : State) (cause : StopCause) (x : Option BoardNo) (d : Option DomainNo) (k : Option Byte) :
    (s.enterDraining cause x d k).escalation = s.escalation := by
  simp [State.enterDraining]

@[simp] theorem State.enterDraining_slot (s : State) (cause : StopCause) (x : Option BoardNo) (d : Option DomainNo) (k : Option Byte) :
    (s.enterDraining cause x d k).slot = s.slot := by
  simp [State.enterDraining]

@[simp] theorem State.enterDraining_listCursor (s : State) (cause : StopCause) (x : Option BoardNo) (d : Option DomainNo) (k : Option Byte) :
    (s.enterDraining cause x d k).listCursor = s.listCursor := by
  simp [State.enterDraining]

@[simp] theorem State.enterDraining_frame (s : State) (cause : StopCause) (x : Option BoardNo) (d : Option DomainNo) (k : Option Byte) :
    (s.enterDraining cause x d k).frame = s.frame := by
  simp [State.enterDraining]

@[simp] theorem State.enterDraining_sdo (s : State) (cause : StopCause) (x : Option BoardNo) (d : Option DomainNo) (k : Option Byte) :
    (s.enterDraining cause x d k).sdo = s.sdo := by
  simp [State.enterDraining]

@[simp] theorem State.enterDraining_filterK (s : State) (cause : StopCause) (x : Option BoardNo) (d : Option DomainNo) (k : Option Byte) :
    (s.enterDraining cause x d k).filterK = s.filterK := by
  simp [State.enterDraining]

@[simp] theorem State.enterDraining_escalationE (s : State) (cause : StopCause) (x : Option BoardNo) (d : Option DomainNo) (k : Option Byte) :
    (s.enterDraining cause x d k).escalationE = s.escalationE := by
  simp [State.enterDraining]

@[simp] theorem State.enterDraining_mask (s : State) (cause : StopCause) (x : Option BoardNo) (d : Option DomainNo) (k : Option Byte) :
    (s.enterDraining cause x d k).mask = s.mask := by
  simp [State.enterDraining]

@[simp] theorem State.enterDraining_freeCount (s : State) (cause : StopCause) (x : Option BoardNo) (d : Option DomainNo) (k : Option Byte) :
    (s.enterDraining cause x d k).freeCount = s.freeCount := by
  simp [State.enterDraining]

@[simp] theorem State.enterDraining_pending (s : State) (cause : StopCause) (x : Option BoardNo) (d : Option DomainNo) (k : Option Byte) :
    (s.enterDraining cause x d k).pending = s.pending := by
  simp [State.enterDraining]

@[simp] theorem State.domain_enterDraining (s : State) (cause : StopCause) (x : Option BoardNo) (d : Option DomainNo) (k : Option Byte) (e : DomainNo) :
    (s.enterDraining cause x d k).domain e = s.domain e := State.domain_of_records (State.enterDraining_records s cause x d k) e

@[simp] theorem State.enterHalted_phase (s : State) (cause : StopCause) (x : Option BoardNo) (k : Option Byte) :
    (s.enterHalted cause x k).phase = s.phase := by
  simp [State.enterHalted]

@[simp] theorem State.enterHalted_clock (s : State) (cause : StopCause) (x : Option BoardNo) (k : Option Byte) :
    (s.enterHalted cause x k).clock = s.clock := by
  simp [State.enterHalted]

@[simp] theorem State.enterHalted_haltAsserted (s : State) (cause : StopCause) (x : Option BoardNo) (k : Option Byte) :
    (s.enterHalted cause x k).haltAsserted = s.haltAsserted := by
  simp [State.enterHalted]

@[simp] theorem State.enterHalted_time (s : State) (cause : StopCause) (x : Option BoardNo) (k : Option Byte) :
    (s.enterHalted cause x k).time = s.time := by
  simp [State.enterHalted]

@[simp] theorem State.enterHalted_seq (s : State) (cause : StopCause) (x : Option BoardNo) (k : Option Byte) :
    (s.enterHalted cause x k).seq = s.seq := by
  simp [State.enterHalted]

@[simp] theorem State.enterHalted_calendar (s : State) (cause : StopCause) (x : Option BoardNo) (k : Option Byte) :
    (s.enterHalted cause x k).calendar = s.calendar := by
  simp [State.enterHalted]

@[simp] theorem State.enterHalted_records (s : State) (cause : StopCause) (x : Option BoardNo) (k : Option Byte) :
    (s.enterHalted cause x k).records = s.records := by
  simp [State.enterHalted]

@[simp] theorem State.enterHalted_budget (s : State) (cause : StopCause) (x : Option BoardNo) (k : Option Byte) :
    (s.enterHalted cause x k).budget = s.budget := by
  simp [State.enterHalted]

@[simp] theorem State.enterHalted_furtherFaults (s : State) (cause : StopCause) (x : Option BoardNo) (k : Option Byte) :
    (s.enterHalted cause x k).furtherFaults = s.furtherFaults := by
  simp [State.enterHalted]

@[simp] theorem State.enterHalted_pointer (s : State) (cause : StopCause) (x : Option BoardNo) (k : Option Byte) :
    (s.enterHalted cause x k).pointer = s.pointer := by
  simp [State.enterHalted]

@[simp] theorem State.enterHalted_escalation (s : State) (cause : StopCause) (x : Option BoardNo) (k : Option Byte) :
    (s.enterHalted cause x k).escalation = s.escalation := by
  simp [State.enterHalted]

@[simp] theorem State.enterHalted_slot (s : State) (cause : StopCause) (x : Option BoardNo) (k : Option Byte) :
    (s.enterHalted cause x k).slot = s.slot := by
  simp [State.enterHalted]

@[simp] theorem State.enterHalted_listCursor (s : State) (cause : StopCause) (x : Option BoardNo) (k : Option Byte) :
    (s.enterHalted cause x k).listCursor = s.listCursor := by
  simp [State.enterHalted]

@[simp] theorem State.enterHalted_frame (s : State) (cause : StopCause) (x : Option BoardNo) (k : Option Byte) :
    (s.enterHalted cause x k).frame = s.frame := by
  simp [State.enterHalted]

@[simp] theorem State.enterHalted_sdo (s : State) (cause : StopCause) (x : Option BoardNo) (k : Option Byte) :
    (s.enterHalted cause x k).sdo = s.sdo := by
  simp [State.enterHalted]

@[simp] theorem State.enterHalted_filterK (s : State) (cause : StopCause) (x : Option BoardNo) (k : Option Byte) :
    (s.enterHalted cause x k).filterK = s.filterK := by
  simp [State.enterHalted]

@[simp] theorem State.enterHalted_escalationE (s : State) (cause : StopCause) (x : Option BoardNo) (k : Option Byte) :
    (s.enterHalted cause x k).escalationE = s.escalationE := by
  simp [State.enterHalted]

@[simp] theorem State.enterHalted_mask (s : State) (cause : StopCause) (x : Option BoardNo) (k : Option Byte) :
    (s.enterHalted cause x k).mask = s.mask := by
  simp [State.enterHalted]

@[simp] theorem State.enterHalted_freeCount (s : State) (cause : StopCause) (x : Option BoardNo) (k : Option Byte) :
    (s.enterHalted cause x k).freeCount = s.freeCount := by
  simp [State.enterHalted]

@[simp] theorem State.enterHalted_pending (s : State) (cause : StopCause) (x : Option BoardNo) (k : Option Byte) :
    (s.enterHalted cause x k).pending = s.pending := by
  simp [State.enterHalted]

@[simp] theorem State.domain_enterHalted (s : State) (cause : StopCause) (x : Option BoardNo) (k : Option Byte) (e : DomainNo) :
    (s.enterHalted cause x k).domain e = s.domain e := State.domain_of_records (State.enterHalted_records s cause x k) e

@[simp] theorem State.memberLeft_phase (s : State) (b : BoardNo) (kind : Option FaultKind) :
    (s.memberLeft b kind).phase = s.phase := by
  unfold State.memberLeft
  cases kind <;> split <;> simp

@[simp] theorem State.memberLeft_clock (s : State) (b : BoardNo) (kind : Option FaultKind) :
    (s.memberLeft b kind).clock = s.clock := by
  unfold State.memberLeft
  cases kind <;> split <;> simp

@[simp] theorem State.memberLeft_haltAsserted (s : State) (b : BoardNo) (kind : Option FaultKind) :
    (s.memberLeft b kind).haltAsserted = s.haltAsserted := by
  unfold State.memberLeft
  cases kind <;> split <;> simp

@[simp] theorem State.memberLeft_time (s : State) (b : BoardNo) (kind : Option FaultKind) :
    (s.memberLeft b kind).time = s.time := by
  unfold State.memberLeft
  cases kind <;> split <;> simp

@[simp] theorem State.memberLeft_seq (s : State) (b : BoardNo) (kind : Option FaultKind) :
    (s.memberLeft b kind).seq = s.seq := by
  unfold State.memberLeft
  cases kind <;> split <;> simp

@[simp] theorem State.memberLeft_calendar (s : State) (b : BoardNo) (kind : Option FaultKind) :
    (s.memberLeft b kind).calendar = s.calendar := by
  unfold State.memberLeft
  cases kind <;> split <;> simp

@[simp] theorem State.memberLeft_records (s : State) (b : BoardNo) (kind : Option FaultKind) :
    (s.memberLeft b kind).records = s.records := by
  unfold State.memberLeft
  cases kind <;> split <;> simp

@[simp] theorem State.memberLeft_budget (s : State) (b : BoardNo) (kind : Option FaultKind) :
    (s.memberLeft b kind).budget = s.budget := by
  unfold State.memberLeft
  cases kind <;> split <;> simp

@[simp] theorem State.memberLeft_pointer (s : State) (b : BoardNo) (kind : Option FaultKind) :
    (s.memberLeft b kind).pointer = s.pointer := by
  unfold State.memberLeft
  cases kind <;> split <;> simp

@[simp] theorem State.memberLeft_escalation (s : State) (b : BoardNo) (kind : Option FaultKind) :
    (s.memberLeft b kind).escalation = s.escalation := by
  unfold State.memberLeft
  cases kind <;> split <;> simp

@[simp] theorem State.memberLeft_slot (s : State) (b : BoardNo) (kind : Option FaultKind) :
    (s.memberLeft b kind).slot = s.slot := by
  unfold State.memberLeft
  cases kind <;> split <;> simp

@[simp] theorem State.memberLeft_listCursor (s : State) (b : BoardNo) (kind : Option FaultKind) :
    (s.memberLeft b kind).listCursor = s.listCursor := by
  unfold State.memberLeft
  cases kind <;> split <;> simp

@[simp] theorem State.memberLeft_frame (s : State) (b : BoardNo) (kind : Option FaultKind) :
    (s.memberLeft b kind).frame = s.frame := by
  unfold State.memberLeft
  cases kind <;> split <;> simp

@[simp] theorem State.memberLeft_sdo (s : State) (b : BoardNo) (kind : Option FaultKind) :
    (s.memberLeft b kind).sdo = s.sdo := by
  unfold State.memberLeft
  cases kind <;> split <;> simp

@[simp] theorem State.memberLeft_filterK (s : State) (b : BoardNo) (kind : Option FaultKind) :
    (s.memberLeft b kind).filterK = s.filterK := by
  unfold State.memberLeft
  cases kind <;> split <;> simp

@[simp] theorem State.memberLeft_escalationE (s : State) (b : BoardNo) (kind : Option FaultKind) :
    (s.memberLeft b kind).escalationE = s.escalationE := by
  unfold State.memberLeft
  cases kind <;> split <;> simp

@[simp] theorem State.memberLeft_mask (s : State) (b : BoardNo) (kind : Option FaultKind) :
    (s.memberLeft b kind).mask = s.mask := by
  unfold State.memberLeft
  cases kind <;> split <;> simp

@[simp] theorem State.memberLeft_freeCount (s : State) (b : BoardNo) (kind : Option FaultKind) :
    (s.memberLeft b kind).freeCount = s.freeCount := by
  unfold State.memberLeft
  cases kind <;> split <;> simp

@[simp] theorem State.memberLeft_pending (s : State) (b : BoardNo) (kind : Option FaultKind) :
    (s.memberLeft b kind).pending = s.pending := by
  unfold State.memberLeft
  cases kind <;> split <;> simp

@[simp] theorem State.domain_memberLeft (s : State) (b : BoardNo) (kind : Option FaultKind) (e : DomainNo) :
    (s.memberLeft b kind).domain e = s.domain e := State.domain_of_records (State.memberLeft_records s b kind) e

@[simp] theorem State.faultLinked_phase (s : State) (b : BoardNo) (kind : FaultKind) :
    (s.faultLinked b kind).phase = s.phase := by
  unfold State.faultLinked
  dsimp only
  split <;> simp

@[simp] theorem State.faultLinked_clock (s : State) (b : BoardNo) (kind : FaultKind) :
    (s.faultLinked b kind).clock = s.clock := by
  unfold State.faultLinked
  dsimp only
  split <;> simp

@[simp] theorem State.faultLinked_haltAsserted (s : State) (b : BoardNo) (kind : FaultKind) :
    (s.faultLinked b kind).haltAsserted = s.haltAsserted := by
  unfold State.faultLinked
  dsimp only
  split <;> simp

@[simp] theorem State.faultLinked_time (s : State) (b : BoardNo) (kind : FaultKind) :
    (s.faultLinked b kind).time = s.time := by
  unfold State.faultLinked
  dsimp only
  split <;> simp

@[simp] theorem State.faultLinked_seq (s : State) (b : BoardNo) (kind : FaultKind) :
    (s.faultLinked b kind).seq = s.seq := by
  unfold State.faultLinked
  dsimp only
  split <;> simp

@[simp] theorem State.faultLinked_calendar (s : State) (b : BoardNo) (kind : FaultKind) :
    (s.faultLinked b kind).calendar = s.calendar := by
  unfold State.faultLinked
  dsimp only
  split <;> simp

@[simp] theorem State.faultLinked_records (s : State) (b : BoardNo) (kind : FaultKind) :
    (s.faultLinked b kind).records = s.records := by
  unfold State.faultLinked
  dsimp only
  split <;> simp

@[simp] theorem State.faultLinked_budget (s : State) (b : BoardNo) (kind : FaultKind) :
    (s.faultLinked b kind).budget = s.budget := by
  unfold State.faultLinked
  dsimp only
  split <;> simp

@[simp] theorem State.faultLinked_pointer (s : State) (b : BoardNo) (kind : FaultKind) :
    (s.faultLinked b kind).pointer = s.pointer := by
  unfold State.faultLinked
  dsimp only
  split <;> simp

@[simp] theorem State.faultLinked_escalation (s : State) (b : BoardNo) (kind : FaultKind) :
    (s.faultLinked b kind).escalation = s.escalation := by
  unfold State.faultLinked
  dsimp only
  split <;> simp

@[simp] theorem State.faultLinked_slot (s : State) (b : BoardNo) (kind : FaultKind) :
    (s.faultLinked b kind).slot = s.slot := by
  unfold State.faultLinked
  dsimp only
  split <;> simp

@[simp] theorem State.faultLinked_listCursor (s : State) (b : BoardNo) (kind : FaultKind) :
    (s.faultLinked b kind).listCursor = s.listCursor := by
  unfold State.faultLinked
  dsimp only
  split <;> simp

@[simp] theorem State.faultLinked_frame (s : State) (b : BoardNo) (kind : FaultKind) :
    (s.faultLinked b kind).frame = s.frame := by
  unfold State.faultLinked
  dsimp only
  split <;> simp

@[simp] theorem State.faultLinked_sdo (s : State) (b : BoardNo) (kind : FaultKind) :
    (s.faultLinked b kind).sdo = s.sdo := by
  unfold State.faultLinked
  dsimp only
  split <;> simp

@[simp] theorem State.faultLinked_filterK (s : State) (b : BoardNo) (kind : FaultKind) :
    (s.faultLinked b kind).filterK = s.filterK := by
  unfold State.faultLinked
  dsimp only
  split <;> simp

@[simp] theorem State.faultLinked_escalationE (s : State) (b : BoardNo) (kind : FaultKind) :
    (s.faultLinked b kind).escalationE = s.escalationE := by
  unfold State.faultLinked
  dsimp only
  split <;> simp

@[simp] theorem State.faultLinked_mask (s : State) (b : BoardNo) (kind : FaultKind) :
    (s.faultLinked b kind).mask = s.mask := by
  unfold State.faultLinked
  dsimp only
  split <;> simp

@[simp] theorem State.faultLinked_freeCount (s : State) (b : BoardNo) (kind : FaultKind) :
    (s.faultLinked b kind).freeCount = s.freeCount := by
  unfold State.faultLinked
  dsimp only
  split <;> simp

@[simp] theorem State.faultLinked_pending (s : State) (b : BoardNo) (kind : FaultKind) :
    (s.faultLinked b kind).pending = s.pending := by
  unfold State.faultLinked
  dsimp only
  split <;> simp

@[simp] theorem State.domain_faultLinked (s : State) (b : BoardNo) (kind : FaultKind) (e : DomainNo) :
    (s.faultLinked b kind).domain e = s.domain e := State.domain_of_records (State.faultLinked_records s b kind) e

@[simp] theorem State.dropLinked_phase (s : State) (b : BoardNo) :
    (s.dropLinked b).phase = s.phase := by
  unfold State.dropLinked
  dsimp only
  split <;> simp

@[simp] theorem State.dropLinked_clock (s : State) (b : BoardNo) :
    (s.dropLinked b).clock = s.clock := by
  unfold State.dropLinked
  dsimp only
  split <;> simp

@[simp] theorem State.dropLinked_haltAsserted (s : State) (b : BoardNo) :
    (s.dropLinked b).haltAsserted = s.haltAsserted := by
  unfold State.dropLinked
  dsimp only
  split <;> simp

@[simp] theorem State.dropLinked_time (s : State) (b : BoardNo) :
    (s.dropLinked b).time = s.time := by
  unfold State.dropLinked
  dsimp only
  split <;> simp

@[simp] theorem State.dropLinked_seq (s : State) (b : BoardNo) :
    (s.dropLinked b).seq = s.seq := by
  unfold State.dropLinked
  dsimp only
  split <;> simp

@[simp] theorem State.dropLinked_calendar (s : State) (b : BoardNo) :
    (s.dropLinked b).calendar = s.calendar := by
  unfold State.dropLinked
  dsimp only
  split <;> simp

@[simp] theorem State.dropLinked_records (s : State) (b : BoardNo) :
    (s.dropLinked b).records = s.records := by
  unfold State.dropLinked
  dsimp only
  split <;> simp

@[simp] theorem State.dropLinked_budget (s : State) (b : BoardNo) :
    (s.dropLinked b).budget = s.budget := by
  unfold State.dropLinked
  dsimp only
  split <;> simp

@[simp] theorem State.dropLinked_pointer (s : State) (b : BoardNo) :
    (s.dropLinked b).pointer = s.pointer := by
  unfold State.dropLinked
  dsimp only
  split <;> simp

@[simp] theorem State.dropLinked_escalation (s : State) (b : BoardNo) :
    (s.dropLinked b).escalation = s.escalation := by
  unfold State.dropLinked
  dsimp only
  split <;> simp

@[simp] theorem State.dropLinked_slot (s : State) (b : BoardNo) :
    (s.dropLinked b).slot = s.slot := by
  unfold State.dropLinked
  dsimp only
  split <;> simp

@[simp] theorem State.dropLinked_listCursor (s : State) (b : BoardNo) :
    (s.dropLinked b).listCursor = s.listCursor := by
  unfold State.dropLinked
  dsimp only
  split <;> simp

@[simp] theorem State.dropLinked_frame (s : State) (b : BoardNo) :
    (s.dropLinked b).frame = s.frame := by
  unfold State.dropLinked
  dsimp only
  split <;> simp

@[simp] theorem State.dropLinked_sdo (s : State) (b : BoardNo) :
    (s.dropLinked b).sdo = s.sdo := by
  unfold State.dropLinked
  dsimp only
  split <;> simp

@[simp] theorem State.dropLinked_filterK (s : State) (b : BoardNo) :
    (s.dropLinked b).filterK = s.filterK := by
  unfold State.dropLinked
  dsimp only
  split <;> simp

@[simp] theorem State.dropLinked_escalationE (s : State) (b : BoardNo) :
    (s.dropLinked b).escalationE = s.escalationE := by
  unfold State.dropLinked
  dsimp only
  split <;> simp

@[simp] theorem State.dropLinked_mask (s : State) (b : BoardNo) :
    (s.dropLinked b).mask = s.mask := by
  unfold State.dropLinked
  dsimp only
  split <;> simp

@[simp] theorem State.dropLinked_freeCount (s : State) (b : BoardNo) :
    (s.dropLinked b).freeCount = s.freeCount := by
  unfold State.dropLinked
  dsimp only
  split <;> simp

@[simp] theorem State.dropLinked_pending (s : State) (b : BoardNo) :
    (s.dropLinked b).pending = s.pending := by
  unfold State.dropLinked
  dsimp only
  split <;> simp

@[simp] theorem State.domain_dropLinked (s : State) (b : BoardNo) (e : DomainNo) :
    (s.dropLinked b).domain e = s.domain e := State.domain_of_records (State.dropLinked_records s b) e

@[simp] theorem State.takeHaltLine_phase (s : State) :
    (s.takeHaltLine).phase = s.phase := by
  unfold State.takeHaltLine
  split <;> simp

@[simp] theorem State.takeHaltLine_clock (s : State) :
    (s.takeHaltLine).clock = s.clock := by
  unfold State.takeHaltLine
  split <;> simp

@[simp] theorem State.takeHaltLine_haltAsserted (s : State) :
    (s.takeHaltLine).haltAsserted = s.haltAsserted := by
  unfold State.takeHaltLine
  split <;> simp

@[simp] theorem State.takeHaltLine_time (s : State) :
    (s.takeHaltLine).time = s.time := by
  unfold State.takeHaltLine
  split <;> simp

@[simp] theorem State.takeHaltLine_seq (s : State) :
    (s.takeHaltLine).seq = s.seq := by
  unfold State.takeHaltLine
  split <;> simp

@[simp] theorem State.takeHaltLine_calendar (s : State) :
    (s.takeHaltLine).calendar = s.calendar := by
  unfold State.takeHaltLine
  split <;> simp

@[simp] theorem State.takeHaltLine_records (s : State) :
    (s.takeHaltLine).records = s.records := by
  unfold State.takeHaltLine
  split <;> simp

@[simp] theorem State.takeHaltLine_budget (s : State) :
    (s.takeHaltLine).budget = s.budget := by
  unfold State.takeHaltLine
  split <;> simp

@[simp] theorem State.takeHaltLine_furtherFaults (s : State) :
    (s.takeHaltLine).furtherFaults = s.furtherFaults := by
  unfold State.takeHaltLine
  split <;> simp

@[simp] theorem State.takeHaltLine_pointer (s : State) :
    (s.takeHaltLine).pointer = s.pointer := by
  unfold State.takeHaltLine
  split <;> simp

@[simp] theorem State.takeHaltLine_escalation (s : State) :
    (s.takeHaltLine).escalation = s.escalation := by
  unfold State.takeHaltLine
  split <;> simp

@[simp] theorem State.takeHaltLine_slot (s : State) :
    (s.takeHaltLine).slot = s.slot := by
  unfold State.takeHaltLine
  split <;> simp

@[simp] theorem State.takeHaltLine_listCursor (s : State) :
    (s.takeHaltLine).listCursor = s.listCursor := by
  unfold State.takeHaltLine
  split <;> simp

@[simp] theorem State.takeHaltLine_frame (s : State) :
    (s.takeHaltLine).frame = s.frame := by
  unfold State.takeHaltLine
  split <;> simp

@[simp] theorem State.takeHaltLine_sdo (s : State) :
    (s.takeHaltLine).sdo = s.sdo := by
  unfold State.takeHaltLine
  split <;> simp

@[simp] theorem State.takeHaltLine_filterK (s : State) :
    (s.takeHaltLine).filterK = s.filterK := by
  unfold State.takeHaltLine
  split <;> simp

@[simp] theorem State.takeHaltLine_escalationE (s : State) :
    (s.takeHaltLine).escalationE = s.escalationE := by
  unfold State.takeHaltLine
  split <;> simp

@[simp] theorem State.takeHaltLine_mask (s : State) :
    (s.takeHaltLine).mask = s.mask := by
  unfold State.takeHaltLine
  split <;> simp

@[simp] theorem State.takeHaltLine_freeCount (s : State) :
    (s.takeHaltLine).freeCount = s.freeCount := by
  unfold State.takeHaltLine
  split <;> simp

@[simp] theorem State.takeHaltLine_pending (s : State) :
    (s.takeHaltLine).pending = s.pending := by
  unfold State.takeHaltLine
  split <;> simp

@[simp] theorem State.domain_takeHaltLine (s : State) (e : DomainNo) :
    (s.takeHaltLine).domain e = s.domain e := State.domain_of_records (State.takeHaltLine_records s) e

@[simp] theorem State.nextProbe_phase (s : State) (b : BoardNo) (t : Training) (run : List Nat) :
    (s.nextProbe b t run).phase = s.phase := by
  unfold State.nextProbe
  split <;> simp [State.trainFailed]

@[simp] theorem State.nextProbe_clock (s : State) (b : BoardNo) (t : Training) (run : List Nat) :
    (s.nextProbe b t run).clock = s.clock := by
  unfold State.nextProbe
  split <;> simp [State.trainFailed]

@[simp] theorem State.nextProbe_haltAsserted (s : State) (b : BoardNo) (t : Training) (run : List Nat) :
    (s.nextProbe b t run).haltAsserted = s.haltAsserted := by
  unfold State.nextProbe
  split <;> simp [State.trainFailed]

@[simp] theorem State.nextProbe_time (s : State) (b : BoardNo) (t : Training) (run : List Nat) :
    (s.nextProbe b t run).time = s.time := by
  unfold State.nextProbe
  split <;> simp [State.trainFailed]

@[simp] theorem State.nextProbe_seq (s : State) (b : BoardNo) (t : Training) (run : List Nat) :
    (s.nextProbe b t run).seq = s.seq := by
  unfold State.nextProbe
  split <;> simp [State.trainFailed]

@[simp] theorem State.nextProbe_calendar (s : State) (b : BoardNo) (t : Training) (run : List Nat) :
    (s.nextProbe b t run).calendar = s.calendar := by
  unfold State.nextProbe
  split <;> simp [State.trainFailed]

@[simp] theorem State.nextProbe_records (s : State) (b : BoardNo) (t : Training) (run : List Nat) :
    (s.nextProbe b t run).records = s.records := by
  unfold State.nextProbe
  split <;> simp [State.trainFailed]

@[simp] theorem State.nextProbe_runState (s : State) (b : BoardNo) (t : Training) (run : List Nat) :
    (s.nextProbe b t run).runState = s.runState := by
  unfold State.nextProbe
  split <;> simp [State.trainFailed]

@[simp] theorem State.nextProbe_budget (s : State) (b : BoardNo) (t : Training) (run : List Nat) :
    (s.nextProbe b t run).budget = s.budget := by
  unfold State.nextProbe
  split <;> simp [State.trainFailed]

@[simp] theorem State.nextProbe_stopRecord (s : State) (b : BoardNo) (t : Training) (run : List Nat) :
    (s.nextProbe b t run).stopRecord = s.stopRecord := by
  unfold State.nextProbe
  split <;> simp [State.trainFailed]

@[simp] theorem State.nextProbe_furtherFaults (s : State) (b : BoardNo) (t : Training) (run : List Nat) :
    (s.nextProbe b t run).furtherFaults = s.furtherFaults := by
  unfold State.nextProbe
  split <;> simp [State.trainFailed]

@[simp] theorem State.nextProbe_pointer (s : State) (b : BoardNo) (t : Training) (run : List Nat) :
    (s.nextProbe b t run).pointer = s.pointer := by
  unfold State.nextProbe
  split <;> simp [State.trainFailed]

@[simp] theorem State.nextProbe_escalation (s : State) (b : BoardNo) (t : Training) (run : List Nat) :
    (s.nextProbe b t run).escalation = s.escalation := by
  unfold State.nextProbe
  split <;> simp [State.trainFailed]

@[simp] theorem State.nextProbe_slot (s : State) (b : BoardNo) (t : Training) (run : List Nat) :
    (s.nextProbe b t run).slot = s.slot := by
  unfold State.nextProbe
  split <;> simp [State.trainFailed]

@[simp] theorem State.nextProbe_listCursor (s : State) (b : BoardNo) (t : Training) (run : List Nat) :
    (s.nextProbe b t run).listCursor = s.listCursor := by
  unfold State.nextProbe
  split <;> simp [State.trainFailed]

@[simp] theorem State.nextProbe_frame (s : State) (b : BoardNo) (t : Training) (run : List Nat) :
    (s.nextProbe b t run).frame = s.frame := by
  unfold State.nextProbe
  split <;> simp [State.trainFailed]

@[simp] theorem State.nextProbe_sdo (s : State) (b : BoardNo) (t : Training) (run : List Nat) :
    (s.nextProbe b t run).sdo = s.sdo := by
  unfold State.nextProbe
  split <;> simp [State.trainFailed]

@[simp] theorem State.nextProbe_filterK (s : State) (b : BoardNo) (t : Training) (run : List Nat) :
    (s.nextProbe b t run).filterK = s.filterK := by
  unfold State.nextProbe
  split <;> simp [State.trainFailed]

@[simp] theorem State.nextProbe_escalationE (s : State) (b : BoardNo) (t : Training) (run : List Nat) :
    (s.nextProbe b t run).escalationE = s.escalationE := by
  unfold State.nextProbe
  split <;> simp [State.trainFailed]

@[simp] theorem State.nextProbe_mask (s : State) (b : BoardNo) (t : Training) (run : List Nat) :
    (s.nextProbe b t run).mask = s.mask := by
  unfold State.nextProbe
  split <;> simp [State.trainFailed]

@[simp] theorem State.nextProbe_freeCount (s : State) (b : BoardNo) (t : Training) (run : List Nat) :
    (s.nextProbe b t run).freeCount = s.freeCount := by
  unfold State.nextProbe
  split <;> simp [State.trainFailed]

@[simp] theorem State.nextProbe_pending (s : State) (b : BoardNo) (t : Training) (run : List Nat) :
    (s.nextProbe b t run).pending = s.pending := by
  unfold State.nextProbe
  split <;> simp [State.trainFailed]

@[simp] theorem State.domain_nextProbe (s : State) (b : BoardNo) (t : Training) (run : List Nat) (e : DomainNo) :
    (s.nextProbe b t run).domain e = s.domain e := State.domain_of_records (State.nextProbe_records s b t run) e

@[simp] theorem State.deliver_phase (s : State) (kind : SetKind) (time : Nat) (f : BoardNo → List (DomainNo × Level)) :
    (s.deliver kind time f).phase = s.phase := by
  simp [State.deliver]

@[simp] theorem State.deliver_clock (s : State) (kind : SetKind) (time : Nat) (f : BoardNo → List (DomainNo × Level)) :
    (s.deliver kind time f).clock = s.clock := by
  simp [State.deliver]

@[simp] theorem State.deliver_haltAsserted (s : State) (kind : SetKind) (time : Nat) (f : BoardNo → List (DomainNo × Level)) :
    (s.deliver kind time f).haltAsserted = s.haltAsserted := by
  simp [State.deliver]

@[simp] theorem State.deliver_time (s : State) (kind : SetKind) (time : Nat) (f : BoardNo → List (DomainNo × Level)) :
    (s.deliver kind time f).time = s.time := by
  simp [State.deliver]

@[simp] theorem State.deliver_seq (s : State) (kind : SetKind) (time : Nat) (f : BoardNo → List (DomainNo × Level)) :
    (s.deliver kind time f).seq = s.seq := by
  simp [State.deliver]

@[simp] theorem State.deliver_calendar (s : State) (kind : SetKind) (time : Nat) (f : BoardNo → List (DomainNo × Level)) :
    (s.deliver kind time f).calendar = s.calendar := by
  simp [State.deliver]

@[simp] theorem State.deliver_records (s : State) (kind : SetKind) (time : Nat) (f : BoardNo → List (DomainNo × Level)) :
    (s.deliver kind time f).records = s.records := by
  simp [State.deliver]

@[simp] theorem State.deliver_runState (s : State) (kind : SetKind) (time : Nat) (f : BoardNo → List (DomainNo × Level)) :
    (s.deliver kind time f).runState = s.runState := by
  simp [State.deliver]

@[simp] theorem State.deliver_budget (s : State) (kind : SetKind) (time : Nat) (f : BoardNo → List (DomainNo × Level)) :
    (s.deliver kind time f).budget = s.budget := by
  simp [State.deliver]

@[simp] theorem State.deliver_stopRecord (s : State) (kind : SetKind) (time : Nat) (f : BoardNo → List (DomainNo × Level)) :
    (s.deliver kind time f).stopRecord = s.stopRecord := by
  simp [State.deliver]

@[simp] theorem State.deliver_furtherFaults (s : State) (kind : SetKind) (time : Nat) (f : BoardNo → List (DomainNo × Level)) :
    (s.deliver kind time f).furtherFaults = s.furtherFaults := by
  simp [State.deliver]

@[simp] theorem State.deliver_pointer (s : State) (kind : SetKind) (time : Nat) (f : BoardNo → List (DomainNo × Level)) :
    (s.deliver kind time f).pointer = s.pointer := by
  simp [State.deliver]

@[simp] theorem State.deliver_escalation (s : State) (kind : SetKind) (time : Nat) (f : BoardNo → List (DomainNo × Level)) :
    (s.deliver kind time f).escalation = s.escalation := by
  simp [State.deliver]

@[simp] theorem State.deliver_slot (s : State) (kind : SetKind) (time : Nat) (f : BoardNo → List (DomainNo × Level)) :
    (s.deliver kind time f).slot = s.slot := by
  simp [State.deliver]

@[simp] theorem State.deliver_listCursor (s : State) (kind : SetKind) (time : Nat) (f : BoardNo → List (DomainNo × Level)) :
    (s.deliver kind time f).listCursor = s.listCursor := by
  simp [State.deliver]

@[simp] theorem State.deliver_frame (s : State) (kind : SetKind) (time : Nat) (f : BoardNo → List (DomainNo × Level)) :
    (s.deliver kind time f).frame = s.frame := by
  simp [State.deliver]

@[simp] theorem State.deliver_sdo (s : State) (kind : SetKind) (time : Nat) (f : BoardNo → List (DomainNo × Level)) :
    (s.deliver kind time f).sdo = s.sdo := by
  simp [State.deliver]

@[simp] theorem State.deliver_filterK (s : State) (kind : SetKind) (time : Nat) (f : BoardNo → List (DomainNo × Level)) :
    (s.deliver kind time f).filterK = s.filterK := by
  simp [State.deliver]

@[simp] theorem State.deliver_escalationE (s : State) (kind : SetKind) (time : Nat) (f : BoardNo → List (DomainNo × Level)) :
    (s.deliver kind time f).escalationE = s.escalationE := by
  simp [State.deliver]

@[simp] theorem State.deliver_events (s : State) (kind : SetKind) (time : Nat) (f : BoardNo → List (DomainNo × Level)) :
    (s.deliver kind time f).events = s.events := by
  simp [State.deliver]

@[simp] theorem State.deliver_mask (s : State) (kind : SetKind) (time : Nat) (f : BoardNo → List (DomainNo × Level)) :
    (s.deliver kind time f).mask = s.mask := by
  simp [State.deliver]

@[simp] theorem State.deliver_freeCount (s : State) (kind : SetKind) (time : Nat) (f : BoardNo → List (DomainNo × Level)) :
    (s.deliver kind time f).freeCount = s.freeCount := by
  simp [State.deliver]

@[simp] theorem State.deliver_pending (s : State) (kind : SetKind) (time : Nat) (f : BoardNo → List (DomainNo × Level)) :
    (s.deliver kind time f).pending = s.pending := by
  simp [State.deliver]

@[simp] theorem State.domain_deliver (s : State) (kind : SetKind) (time : Nat) (f : BoardNo → List (DomainNo × Level)) (e : DomainNo) :
    (s.deliver kind time f).domain e = s.domain e := State.domain_of_records (State.deliver_records s kind time f) e

@[simp] theorem State.queueNotices_phase (s : State) (l : List (Notice × BoardSet)) :
    (s.queueNotices l).phase = s.phase := by
  rw [State.queueNotices_eq]

@[simp] theorem State.queueNotices_clock (s : State) (l : List (Notice × BoardSet)) :
    (s.queueNotices l).clock = s.clock := by
  rw [State.queueNotices_eq]

@[simp] theorem State.queueNotices_haltAsserted (s : State) (l : List (Notice × BoardSet)) :
    (s.queueNotices l).haltAsserted = s.haltAsserted := by
  rw [State.queueNotices_eq]

@[simp] theorem State.queueNotices_time (s : State) (l : List (Notice × BoardSet)) :
    (s.queueNotices l).time = s.time := by
  rw [State.queueNotices_eq]

@[simp] theorem State.queueNotices_seq (s : State) (l : List (Notice × BoardSet)) :
    (s.queueNotices l).seq = s.seq := by
  rw [State.queueNotices_eq]

@[simp] theorem State.queueNotices_calendar (s : State) (l : List (Notice × BoardSet)) :
    (s.queueNotices l).calendar = s.calendar := by
  rw [State.queueNotices_eq]

@[simp] theorem State.queueNotices_records (s : State) (l : List (Notice × BoardSet)) :
    (s.queueNotices l).records = s.records := by
  rw [State.queueNotices_eq]

@[simp] theorem State.queueNotices_runState (s : State) (l : List (Notice × BoardSet)) :
    (s.queueNotices l).runState = s.runState := by
  rw [State.queueNotices_eq]

@[simp] theorem State.queueNotices_budget (s : State) (l : List (Notice × BoardSet)) :
    (s.queueNotices l).budget = s.budget := by
  rw [State.queueNotices_eq]

@[simp] theorem State.queueNotices_stopRecord (s : State) (l : List (Notice × BoardSet)) :
    (s.queueNotices l).stopRecord = s.stopRecord := by
  rw [State.queueNotices_eq]

@[simp] theorem State.queueNotices_furtherFaults (s : State) (l : List (Notice × BoardSet)) :
    (s.queueNotices l).furtherFaults = s.furtherFaults := by
  rw [State.queueNotices_eq]

@[simp] theorem State.queueNotices_pointer (s : State) (l : List (Notice × BoardSet)) :
    (s.queueNotices l).pointer = s.pointer := by
  rw [State.queueNotices_eq]

@[simp] theorem State.queueNotices_escalation (s : State) (l : List (Notice × BoardSet)) :
    (s.queueNotices l).escalation = s.escalation := by
  rw [State.queueNotices_eq]

@[simp] theorem State.queueNotices_slot (s : State) (l : List (Notice × BoardSet)) :
    (s.queueNotices l).slot = s.slot := by
  rw [State.queueNotices_eq]

@[simp] theorem State.queueNotices_listCursor (s : State) (l : List (Notice × BoardSet)) :
    (s.queueNotices l).listCursor = s.listCursor := by
  rw [State.queueNotices_eq]

@[simp] theorem State.queueNotices_frame (s : State) (l : List (Notice × BoardSet)) :
    (s.queueNotices l).frame = s.frame := by
  rw [State.queueNotices_eq]

@[simp] theorem State.queueNotices_sdo (s : State) (l : List (Notice × BoardSet)) :
    (s.queueNotices l).sdo = s.sdo := by
  rw [State.queueNotices_eq]

@[simp] theorem State.queueNotices_filterK (s : State) (l : List (Notice × BoardSet)) :
    (s.queueNotices l).filterK = s.filterK := by
  rw [State.queueNotices_eq]

@[simp] theorem State.queueNotices_escalationE (s : State) (l : List (Notice × BoardSet)) :
    (s.queueNotices l).escalationE = s.escalationE := by
  rw [State.queueNotices_eq]

@[simp] theorem State.queueNotices_events (s : State) (l : List (Notice × BoardSet)) :
    (s.queueNotices l).events = s.events := by
  rw [State.queueNotices_eq]

@[simp] theorem State.queueNotices_mask (s : State) (l : List (Notice × BoardSet)) :
    (s.queueNotices l).mask = s.mask := by
  rw [State.queueNotices_eq]

@[simp] theorem State.queueNotices_freeCount (s : State) (l : List (Notice × BoardSet)) :
    (s.queueNotices l).freeCount = s.freeCount := by
  rw [State.queueNotices_eq]

@[simp] theorem State.queueNotices_pending (s : State) (l : List (Notice × BoardSet)) :
    (s.queueNotices l).pending = s.pending := by
  rw [State.queueNotices_eq]

@[simp] theorem State.domain_queueNotices (s : State) (l : List (Notice × BoardSet)) (e : DomainNo) :
    (s.queueNotices l).domain e = s.domain e := State.domain_of_records (State.queueNotices_records s l) e

@[simp] theorem State.putReply_phase (s : State) (g : Grant) (status : Status) (data : List Byte) :
    (s.putReply g status data).phase = s.phase := by
  unfold State.putReply
  split <;> simp

@[simp] theorem State.putReply_clock (s : State) (g : Grant) (status : Status) (data : List Byte) :
    (s.putReply g status data).clock = s.clock := by
  unfold State.putReply
  split <;> simp

@[simp] theorem State.putReply_haltAsserted (s : State) (g : Grant) (status : Status) (data : List Byte) :
    (s.putReply g status data).haltAsserted = s.haltAsserted := by
  unfold State.putReply
  split <;> simp

@[simp] theorem State.putReply_time (s : State) (g : Grant) (status : Status) (data : List Byte) :
    (s.putReply g status data).time = s.time := by
  unfold State.putReply
  split <;> simp

@[simp] theorem State.putReply_seq (s : State) (g : Grant) (status : Status) (data : List Byte) :
    (s.putReply g status data).seq = s.seq := by
  unfold State.putReply
  split <;> simp

@[simp] theorem State.putReply_calendar (s : State) (g : Grant) (status : Status) (data : List Byte) :
    (s.putReply g status data).calendar = s.calendar := by
  unfold State.putReply
  split <;> simp

@[simp] theorem State.putReply_records (s : State) (g : Grant) (status : Status) (data : List Byte) :
    (s.putReply g status data).records = s.records := by
  unfold State.putReply
  split <;> simp

@[simp] theorem State.putReply_runState (s : State) (g : Grant) (status : Status) (data : List Byte) :
    (s.putReply g status data).runState = s.runState := by
  unfold State.putReply
  split <;> simp

@[simp] theorem State.putReply_budget (s : State) (g : Grant) (status : Status) (data : List Byte) :
    (s.putReply g status data).budget = s.budget := by
  unfold State.putReply
  split <;> simp

@[simp] theorem State.putReply_stopRecord (s : State) (g : Grant) (status : Status) (data : List Byte) :
    (s.putReply g status data).stopRecord = s.stopRecord := by
  unfold State.putReply
  split <;> simp

@[simp] theorem State.putReply_furtherFaults (s : State) (g : Grant) (status : Status) (data : List Byte) :
    (s.putReply g status data).furtherFaults = s.furtherFaults := by
  unfold State.putReply
  split <;> simp

@[simp] theorem State.putReply_pointer (s : State) (g : Grant) (status : Status) (data : List Byte) :
    (s.putReply g status data).pointer = s.pointer := by
  unfold State.putReply
  split <;> simp

@[simp] theorem State.putReply_escalation (s : State) (g : Grant) (status : Status) (data : List Byte) :
    (s.putReply g status data).escalation = s.escalation := by
  unfold State.putReply
  split <;> simp

@[simp] theorem State.putReply_listCursor (s : State) (g : Grant) (status : Status) (data : List Byte) :
    (s.putReply g status data).listCursor = s.listCursor := by
  unfold State.putReply
  split <;> simp

@[simp] theorem State.putReply_frame (s : State) (g : Grant) (status : Status) (data : List Byte) :
    (s.putReply g status data).frame = s.frame := by
  unfold State.putReply
  split <;> simp

@[simp] theorem State.putReply_sdo (s : State) (g : Grant) (status : Status) (data : List Byte) :
    (s.putReply g status data).sdo = s.sdo := by
  unfold State.putReply
  split <;> simp

@[simp] theorem State.putReply_filterK (s : State) (g : Grant) (status : Status) (data : List Byte) :
    (s.putReply g status data).filterK = s.filterK := by
  unfold State.putReply
  split <;> simp

@[simp] theorem State.putReply_escalationE (s : State) (g : Grant) (status : Status) (data : List Byte) :
    (s.putReply g status data).escalationE = s.escalationE := by
  unfold State.putReply
  split <;> simp

@[simp] theorem State.putReply_events (s : State) (g : Grant) (status : Status) (data : List Byte) :
    (s.putReply g status data).events = s.events := by
  unfold State.putReply
  split <;> simp

@[simp] theorem State.putReply_mask (s : State) (g : Grant) (status : Status) (data : List Byte) :
    (s.putReply g status data).mask = s.mask := by
  unfold State.putReply
  split <;> simp

@[simp] theorem State.putReply_freeCount (s : State) (g : Grant) (status : Status) (data : List Byte) :
    (s.putReply g status data).freeCount = s.freeCount := by
  unfold State.putReply
  split <;> simp

@[simp] theorem State.putReply_pending (s : State) (g : Grant) (status : Status) (data : List Byte) :
    (s.putReply g status data).pending = s.pending := by
  unfold State.putReply
  split <;> simp

@[simp] theorem State.domain_putReply (s : State) (g : Grant) (status : Status) (data : List Byte) (e : DomainNo) :
    (s.putReply g status data).domain e = s.domain e := State.domain_of_records (State.putReply_records s g status data) e

@[simp] theorem State.freeDomain_phase (s : State) (d : DomainNo) :
    (s.freeDomain d).phase = s.phase := by
  unfold State.freeDomain
  split <;> simp

@[simp] theorem State.freeDomain_clock (s : State) (d : DomainNo) :
    (s.freeDomain d).clock = s.clock := by
  unfold State.freeDomain
  split <;> simp

@[simp] theorem State.freeDomain_haltAsserted (s : State) (d : DomainNo) :
    (s.freeDomain d).haltAsserted = s.haltAsserted := by
  unfold State.freeDomain
  split <;> simp

@[simp] theorem State.freeDomain_time (s : State) (d : DomainNo) :
    (s.freeDomain d).time = s.time := by
  unfold State.freeDomain
  split <;> simp

@[simp] theorem State.freeDomain_seq (s : State) (d : DomainNo) :
    (s.freeDomain d).seq = s.seq := by
  unfold State.freeDomain
  split <;> simp

@[simp] theorem State.freeDomain_calendar (s : State) (d : DomainNo) :
    (s.freeDomain d).calendar = s.calendar := by
  unfold State.freeDomain
  split <;> simp

@[simp] theorem State.freeDomain_runState (s : State) (d : DomainNo) :
    (s.freeDomain d).runState = s.runState := by
  unfold State.freeDomain
  split <;> simp

@[simp] theorem State.freeDomain_budget (s : State) (d : DomainNo) :
    (s.freeDomain d).budget = s.budget := by
  unfold State.freeDomain
  split <;> simp

@[simp] theorem State.freeDomain_stopRecord (s : State) (d : DomainNo) :
    (s.freeDomain d).stopRecord = s.stopRecord := by
  unfold State.freeDomain
  split <;> simp

@[simp] theorem State.freeDomain_furtherFaults (s : State) (d : DomainNo) :
    (s.freeDomain d).furtherFaults = s.furtherFaults := by
  unfold State.freeDomain
  split <;> simp

@[simp] theorem State.freeDomain_boards (s : State) (d : DomainNo) :
    (s.freeDomain d).boards = s.boards := by
  unfold State.freeDomain
  split <;> simp

@[simp] theorem State.freeDomain_pointer (s : State) (d : DomainNo) :
    (s.freeDomain d).pointer = s.pointer := by
  unfold State.freeDomain
  split <;> simp

@[simp] theorem State.freeDomain_escalation (s : State) (d : DomainNo) :
    (s.freeDomain d).escalation = s.escalation := by
  unfold State.freeDomain
  split <;> simp

@[simp] theorem State.freeDomain_slot (s : State) (d : DomainNo) :
    (s.freeDomain d).slot = s.slot := by
  unfold State.freeDomain
  split <;> simp

@[simp] theorem State.freeDomain_listCursor (s : State) (d : DomainNo) :
    (s.freeDomain d).listCursor = s.listCursor := by
  unfold State.freeDomain
  split <;> simp

@[simp] theorem State.freeDomain_frame (s : State) (d : DomainNo) :
    (s.freeDomain d).frame = s.frame := by
  unfold State.freeDomain
  split <;> simp

@[simp] theorem State.freeDomain_sdo (s : State) (d : DomainNo) :
    (s.freeDomain d).sdo = s.sdo := by
  unfold State.freeDomain
  split <;> simp

@[simp] theorem State.freeDomain_filterK (s : State) (d : DomainNo) :
    (s.freeDomain d).filterK = s.filterK := by
  unfold State.freeDomain
  split <;> simp

@[simp] theorem State.freeDomain_escalationE (s : State) (d : DomainNo) :
    (s.freeDomain d).escalationE = s.escalationE := by
  unfold State.freeDomain
  split <;> simp

@[simp] theorem State.freeDomain_events (s : State) (d : DomainNo) :
    (s.freeDomain d).events = s.events := by
  unfold State.freeDomain
  split <;> simp

@[simp] theorem State.freeDomain_mask (s : State) (d : DomainNo) :
    (s.freeDomain d).mask = s.mask := by
  unfold State.freeDomain
  split <;> simp

@[simp] theorem State.freeDomain_freeCount (s : State) (d : DomainNo) :
    (s.freeDomain d).freeCount = s.freeCount := by
  unfold State.freeDomain
  split <;> simp

@[simp] theorem State.freeDomain_pending (s : State) (d : DomainNo) :
    (s.freeDomain d).pending = s.pending := by
  unfold State.freeDomain
  split <;> simp

@[simp] theorem State.board_freeDomain (s : State) (d : DomainNo) (c : BoardNo) :
    (s.freeDomain d).board c = s.board c := State.board_of_boards (State.freeDomain_boards s d) c

/-! Board entries after them -/

@[simp] theorem State.board_enterDraining (s : State) (cause : StopCause) (x : Option BoardNo) (d : Option DomainNo)
    (k : Option Byte) (c : BoardNo) :
    (s.enterDraining cause x d k).board c = { s.board c with holdTimer := none } := by
  simp only [State.enterDraining, State.board_completeDraining, State.board_disarmHoldTimers, State.board_writeRecord]
  rfl

@[simp] theorem State.board_enterHalted (s : State) (cause : StopCause) (x : Option BoardNo) (k : Option Byte)
    (c : BoardNo) : (s.enterHalted cause x k).board c = { s.board c with holdTimer := none } := by
  simp only [State.enterHalted, State.board_raise, State.board_disarmHoldTimers, State.board_writeRecord]
  rfl

/-- A departure reported touches nothing of a board entry but its hold timer. -/
theorem State.board_memberLeft (s : State) (b c : BoardNo) (kind : Option FaultKind) :
    (s.memberLeft b kind).board c = s.board c ∨
      (s.memberLeft b kind).board c = { s.board c with holdTimer := none } := by
  unfold State.memberLeft
  split
  · exact .inl rfl
  · cases kind <;> exact .inr (by simp)

/-- A fault of one board touches nothing of another but its hold timer. -/
theorem State.board_faultLinked_other {s : State} {b c : BoardNo} (kind : FaultKind) (h : c ≠ b) :
    (s.faultLinked b kind).board c = s.board c ∨
      (s.faultLinked b kind).board c = { s.board c with holdTimer := none } := by
  unfold State.faultLinked
  dsimp only
  split
  · rcases State.board_memberLeft ((s.setBoard b { (s.board b).leaveLinked .fault with lastFault := some kind }).raise
      (.boardFault b)) b c (some kind) with e | e <;> simp [e, h]
  · exact .inl (by simp [h])

/-- A reply touches the slots and the queue of the requester's entry only. -/
theorem State.board_putReply_other {s : State} {g : Grant} {status : Status} {data : List Byte} {c : BoardNo}
    (h : ∀ t, g.requester ≠ .board c t) : (s.putReply g status data).board c = s.board c := by
  unfold State.putReply
  split
  · rfl
  · rename_i b t hr
    have hc : c ≠ b := fun e => h t (e ▸ hr)
    simp [hc]

/-! Sending -/

/-- Sending the head keeps everything of a board entry but its queue and its slots. -/
theorem Board.sendHead_eq (e : Board) :
    e.sendHead = { e with txQueue := e.txQueue.tail, slots := e.sendHead.slots } := by
  unfold Board.sendHead
  split
  · rename_i h
    simp only [h, List.tail_nil]
    rw [← h]
  · rename_i f fs h
    split
    · split <;> simp [h, Board.setSlot]
    · simp [h]

/-- A frame that occupies no slot leaves the slots alone. -/
theorem Board.sendHead_slots {e : Board} {f : Frame} {fs : List Frame} (h : e.txQueue = f :: fs)
    (k : ∀ t, f.occupies t = false) : e.sendHead = { e with txQueue := fs } := by
  unfold Board.sendHead
  rw [h]
  dsimp only
  split
  · rename_i t _ status _
    split
    · rfl
    · rename_i hs
      have := k t
      simp [Frame.occupies, hs] at this
  · rfl

/-- A reply that occupies a slot empties it. -/
theorem Board.sendHead_reply {e : Board} {t : Tag} {kind : BitVec 7} {status : Status} {data : List Byte}
    {fs : List Frame} (h : e.txQueue = .reply t kind status data :: fs) (k : status ≠ .slotBusy) :
    e.sendHead = ({ e with txQueue := fs }).setSlot t .empty := by
  unfold Board.sendHead
  rw [h]
  simp only [if_neg k]

end Sys2Proof.Machine
end

