-- ==== Sys2Proof/Laws/Advance.lean ====
section
/-! SUPPORT. What the processing of a head group touches: the records, the calendar and the pending events, and nothing
else of State; the step of R78 on one record and the records it leaves alone; the stops at the end of an advance; and the
calendar that REWIND rebuilds. -/

open Sys2Proof.Safety

namespace Sys2Proof.Machine

/-- `t` is `s` but for its records, its calendar and its pending events. -/
def State.SameOutside (s t : State) : Prop :=
  t = { s with records := t.records, calendar := t.calendar, events := t.events }

theorem State.SameOutside.refl (s : State) : s.SameOutside s := rfl

theorem State.SameOutside.trans {s t u : State} (h : s.SameOutside t) (k : t.SameOutside u) : s.SameOutside u := by
  unfold State.SameOutside at *
  rw [k, h]

theorem State.sameOutside_setDomain (s : State) (d : DomainNo) (r : Option Domain) : s.SameOutside (s.setDomain d r) :=
  rfl

theorem State.sameOutside_insertEntry (s : State) (x : Entry) : s.SameOutside (s.insertEntry x) := rfl

theorem State.sameOutside_rekey (s : State) (x : Entry) : s.SameOutside (s.rekey x) := rfl

theorem State.sameOutside_raise (s : State) (e : Event) : s.SameOutside (s.raise e) := rfl

theorem State.sameOutside_freeDomain (s : State) (d : DomainNo) : s.SameOutside (s.freeDomain d) := by
  unfold State.freeDomain
  split <;> rfl

/-- A step of R78 on one record is judged on that record. -/
theorem Advance.withRecord_outside {w : Advance} {d : DomainNo} {k : Domain → Advance}
    (h : ∀ r, w.state.domain d = some r → w.state.SameOutside (k r).state) :
    w.state.SameOutside (w.withRecord d k).state := by
  unfold Advance.withRecord
  split
  · exact h _ (by assumption)
  · rfl

theorem Advance.level_outside (w : Advance) (d : DomainNo) (kind : EdgeKind) :
    w.state.SameOutside (w.level d kind).state := Advance.withRecord_outside fun _ _ => rfl

theorem Advance.revised_outside (w : Advance) (d : DomainNo) (r : Domain) :
    w.state.SameOutside (w.revised d r).state := rfl

theorem Advance.ownRevision_outside (w : Advance) (d : DomainNo) (t : Nat) :
    w.state.SameOutside (w.ownRevision d t).state :=
  Advance.withRecord_outside fun r _ => by
    split <;> rfl

theorem Advance.rekeyCompanion_outside (w : Advance) (p : Primary) (c : DomainNo) (t : Nat) :
    w.state.SameOutside (w.rekeyCompanion p c t).state := Advance.withRecord_outside fun _ _ => rfl

theorem Advance.settleCompanion_outside (w : Advance) (p : Primary) (c : DomainNo) (t : Nat) (due : Bool) :
    w.state.SameOutside (w.settleCompanion p c t due).state :=
  Advance.withRecord_outside fun x _ => by
    split
    · exact (Advance.revised_outside w c _).trans (Advance.rekeyCompanion_outside _ p c t)
    · split
      · exact Advance.rekeyCompanion_outside w p c t
      · rfl
    · rfl
    · rfl

theorem Advance.revision_outside (w : Advance) (d : DomainNo) (t : Nat) :
    w.state.SameOutside (w.revision d t).state :=
  Advance.withRecord_outside fun before _ => by
    refine (Advance.ownRevision_outside w d t).trans (Advance.withRecord_outside fun r _ => ?_)
    split
    · rfl
    · split
      · rfl
      · exact Advance.settleCompanion_outside _ _ _ _ _

theorem Advance.count_outside (w : Advance) (d : DomainNo) : w.state.SameOutside (w.count d).state :=
  Advance.withRecord_outside fun r _ => by
    dsimp only
    split <;> rfl

theorem Advance.finish_outside (w : Advance) (d : DomainNo) (kind : EdgeKind) (t : Nat) :
    w.state.SameOutside (w.finish d kind t).state :=
  Advance.withRecord_outside fun r _ => by
    dsimp only
    split
    · split
      · rfl
      · exact State.sameOutside_freeDomain w.state d
      · rfl
      · rfl
      · rfl
      · rfl
      · rfl
    · rfl

theorem Advance.edge_outside (t : Nat) (w : Advance) (x : Entry) : w.state.SameOutside (w.edge t x).state := by
  unfold Advance.edge
  split
  · exact (((Advance.level_outside _ _ _).trans (Advance.revision_outside _ _ _)).trans
      (Advance.count_outside _ _)).trans (Advance.finish_outside _ _ _ _)
  · exact (Advance.level_outside _ _ _).trans (Advance.finish_outside _ _ _ _)

/-- A whole group. -/
theorem State.processGroup_outside (s : State) (t : Nat) : s.SameOutside (s.processGroup t).state := by
  unfold State.processGroup
  suffices h : ∀ (l : List Entry) (w : Advance), w.state.SameOutside (l.foldl (Advance.edge t) w).state from
    State.SameOutside.trans (t := { s with calendar := s.calendar.filter fun e => !decide (e.time = t) }) rfl (h _ _)
  intro l
  induction l with
  | nil => exact fun w => rfl
  | cons x l ih => exact fun w => (Advance.edge_outside t w x).trans (ih _)

/-! One step of R78 -/

theorem Advance.withRecord_some {w : Advance} {d : DomainNo} {r : Domain} {k : Domain → Advance}
    (h : w.state.domain d = some r) : w.withRecord d k = k r := by
  simp only [Advance.withRecord, h]

theorem Advance.withRecord_none {w : Advance} {d : DomainNo} {k : Domain → Advance} (h : w.state.domain d = none) :
    w.withRecord d k = w := by
  simp only [Advance.withRecord, h]

/-- A step on one record leaves another alone when what it does with the record found does. -/
theorem Advance.withRecord_other {w : Advance} {d e : DomainNo} {k : Domain → Advance}
    (h : ∀ r, w.state.domain d = some r → (k r).state.domain e = w.state.domain e) :
    (w.withRecord d k).state.domain e = w.state.domain e := by
  unfold Advance.withRecord
  split
  · exact h _ (by assumption)
  · rfl

theorem Advance.level_other (w : Advance) {d e : DomainNo} (kind : EdgeKind) (h : e ≠ d) :
    (w.level d kind).state.domain e = w.state.domain e :=
  Advance.withRecord_other fun r _ => by simp [State.domain_setDomain, h]

theorem Advance.revised_other (w : Advance) {d e : DomainNo} (r : Domain) (h : e ≠ d) :
    (w.revised d r).state.domain e = w.state.domain e := by
  simp [Advance.revised, Advance.note, State.domain_setDomain, h]

theorem Advance.ownRevision_other (w : Advance) {d e : DomainNo} (t : Nat) (h : e ≠ d) :
    (w.ownRevision d t).state.domain e = w.state.domain e :=
  Advance.withRecord_other fun r _ => by
    split
    · exact w.revised_other _ h
    · rfl

theorem Advance.rekeyCompanion_records (w : Advance) (p : Primary) (c e : DomainNo) (t : Nat) :
    (w.rekeyCompanion p c t).state.domain e = w.state.domain e := Advance.withRecord_other fun _ _ => rfl

theorem Advance.settleCompanion_other (w : Advance) (p : Primary) {c e : DomainNo} (t : Nat) (due : Bool) (h : e ≠ c) :
    (w.settleCompanion p c t due).state.domain e = w.state.domain e :=
  Advance.withRecord_other fun x _ => by
    split
    · rw [Advance.rekeyCompanion_records, Advance.revised_other _ _ h]
    · split
      · exact Advance.rekeyCompanion_records _ _ _ _ _
      · rfl
    · rfl
    · rfl

theorem Advance.count_other (w : Advance) {d e : DomainNo} (h : e ≠ d) :
    (w.count d).state.domain e = w.state.domain e :=
  Advance.withRecord_other fun r _ => by
    dsimp only
    split <;> simp [State.domain_setDomain, h]

/-- A completion or a next edge: the record's parent apart, no other record changes (R28, R53, R57). -/
theorem Advance.finish_other (w : Advance) {d e : DomainNo} (kind : EdgeKind) (t : Nat) (h : e ≠ d)
    (k : ∀ r c, w.state.domain d = some r → r.source = .companion c → c.parent ≠ e) :
    (w.finish d kind t).state.domain e = w.state.domain e :=
  Advance.withRecord_other fun r hr => by
    dsimp only
    split
    · split
      · simp [Advance.note, State.domain_setDomain, h]
      · unfold State.freeDomain
        split
        · rename_i c hc
          rw [hr] at hc
          have := k r _ hr (by injection hc with hc; rw [hc])
          simp [Advance.note, State.domain_setDomain, State.modifyDomain, h, Ne.symm this]
        · simp [Advance.note, State.domain_setDomain, h]
      · rfl
      · rfl
      · rfl
      · rfl
      · rfl
    · rfl

/-! The end of an advance -/

/-- An advance that passes its limit checks. -/
theorem execAdvance_issues {s : State} {x : Entry} {rest : List Entry} (h : s.advanceCondition = true)
    (c : s.calendar = x :: rest) (l : x.time < 2 ^ 48) (u : ∀ limit, s.budget = .untilTime limit → x.time ≤ limit) :
    execAdvance s = .next (((State.issueSet (s.processGroup x.time) x.time).breakpointStop
      (s.processGroup x.time).breakpoints).budgetStop).emptyStop := by
  have hp : s.budget.past x.time = false := by
    unfold Budget.past
    split
    · rename_i limit hb
      have := u limit hb
      simpa using this
    · rfl
    · rfl
  unfold execAdvance State.advanceAt
  rw [if_pos h, c]
  dsimp only
  rw [if_neg (by unfold Config.timeLimit; omega), hp]
  rfl

/-- How `t` ends an advance whose set was issued in `u`: with a budget of its own and nothing else written, or with the
run out of RUNNING, its record, its hold timers, and STOPPED where every member is clear (R83 to R86). -/
def State.EndsAs (u t : State) : Prop :=
  (∃ budget, t = { u with budget := budget }) ∨
  ∃ budget run record events,
    t = { u with
      budget := budget, runState := run, stopRecord := record, boards := holdTimersOff u, events := events } ∧
    run ≠ .running ∧ (events = u.events ∨ events = { u.events with stopped := true } ∧ membersClear u)

theorem State.EndsAs.draining {u : State} {budget : Budget} (cause : StopCause) (d : Option DomainNo) :
    u.EndsAs (({ u with budget := budget } : State).enterDraining cause none d none) := by
  obtain ⟨run, record, events, e, hr, h⟩ :=
    ({ u with budget := budget } : State).enterDraining_form cause none d none
  exact .inr ⟨budget, run, record, events, by rw [e]; rfl, hr, h⟩

theorem State.EndsAs.budgetStop {u t : State} (h : u.EndsAs t) : u.EndsAs t.budgetStop := by
  unfold State.budgetStop
  split
  · dsimp only
    split
    · rename_i n hb hr
      rcases h with ⟨budget, rfl⟩ | ⟨budget, run, record, events, rfl, hn, _⟩
      · exact .draining .budget none
      · exact absurd hr.2 hn
    · rcases h with ⟨budget, rfl⟩ | ⟨budget, run, record, events, rfl, hn, k⟩
      · exact .inl ⟨_, rfl⟩
      · exact .inr ⟨_, run, record, events, rfl, hn, k⟩
  · exact h
  · exact h

theorem State.EndsAs.emptyStop {u t : State} (h : u.EndsAs t) : u.EndsAs t.emptyStop := by
  unfold State.emptyStop
  split
  · rename_i hr
    rcases h with ⟨budget, rfl⟩ | ⟨budget, run, record, events, rfl, hn, _⟩
    · exact .draining .noEdges none
    · exact absurd hr.1 hn
  · exact h

/-- The three stops in their order. -/
theorem State.endsAs_stops (u : State) (breakpoints : List DomainNo) :
    u.EndsAs ((u.breakpointStop breakpoints).budgetStop).emptyStop := by
  refine .emptyStop (.budgetStop ?_)
  unfold State.breakpointStop
  split
  · exact .inl ⟨u.budget, rfl⟩
  · exact .draining (budget := u.budget) .breakpoint _

/-! REWIND's calendar (R72) -/

/-- The first edges of a list of domains, inserted one by one. -/
theorem Calendar.mem_foldl_insert {f : DomainNo → Option Entry} {l : List DomainNo} {c : List Entry} {x : Entry} :
    x ∈ l.foldl (fun c d => match f d with | some e => Calendar.insert e c | none => c) c ↔
      x ∈ c ∨ ∃ d ∈ l, f d = some x := by
  induction l generalizing c with
  | nil => simp
  | cons d l ih =>
    rw [List.foldl_cons, ih]
    cases hd : f d with
    | none => simp [hd]
    | some e =>
      simp only [Calendar.mem_insert, List.mem_cons, exists_eq_or_imp, hd, Option.some.injEq]
      tauto

/-- Entries of domains that are not yet there keep the strict order. -/
theorem Calendar.strict_foldl_insert {f : DomainNo → Option Entry} {l : List DomainNo} {c : List Entry}
    (own : ∀ d e, f d = some e → e.domain = d) (nodup : l.Nodup) (new : ∀ d ∈ l, ∀ y ∈ c, y.domain ≠ d)
    (h : c.Pairwise fun x y => x.before y = true) :
    (l.foldl (fun c d => match f d with | some e => Calendar.insert e c | none => c) c).Pairwise
      fun x y => x.before y = true := by
  induction l generalizing c with
  | nil => exact h
  | cons d l ih =>
    rw [List.nodup_cons] at nodup
    rw [List.foldl_cons]
    have rest : ∀ e ∈ l, ∀ y ∈ c, y.domain ≠ e := fun e he => new e (List.mem_cons_of_mem d he)
    cases hd : f d with
    | none => exact ih nodup.2 rest h
    | some e =>
      have he := own d e hd
      refine ih nodup.2 (fun d' hd' y hy => ?_) (Calendar.strict_insert h (he ▸ new d List.mem_cons_self))
      rcases Calendar.mem_insert.mp hy with rfl | hy
      · rw [he]
        exact fun k => nodup.1 (k ▸ hd')
      · exact rest d' hd' y hy

/-- The first edge of an ACTIVE record at REWIND. -/
def State.rewindEdge? (s : State) (d : DomainNo) : Option Entry :=
  match s.domain d with
  | some r => if r.isActive then some (s.rewindEdge d r) else none
  | none => none

theorem State.rebuildCalendar_eq (s : State) : s.rebuildCalendar = { s with
    calendar := allDomains.foldl (fun c d => match s.rewindEdge? d with | some e => Calendar.insert e c | none => c) [] } := by
  unfold State.rebuildCalendar
  congr
  funext c d
  unfold State.rewindEdge?
  cases s.domain d with
  | none => rfl
  | some r => cases h : r.isActive <;> simp [h]

theorem State.rewindEdge_domain (s : State) (d : DomainNo) (r : Domain) : (s.rewindEdge d r).domain = d := by
  unfold State.rewindEdge Primary.firstEdge Companion.firstEdge
  split
  · split <;> rfl
  · split
    · split <;> rfl
    · rfl

/-- The rebuilt calendar holds the first edge of every ACTIVE record and nothing else. -/
theorem State.mem_rebuildCalendar {s : State} {x : Entry} : x ∈ s.rebuildCalendar.calendar ↔
    ∃ r, s.domain x.domain = some r ∧ r.isActive = true ∧ x = s.rewindEdge x.domain r := by
  rw [State.rebuildCalendar_eq, Calendar.mem_foldl_insert]
  simp only [List.not_mem_nil, false_or, allDomains, List.mem_finRange, true_and, State.rewindEdge?]
  constructor
  · rintro ⟨d, h⟩
    split at h
    · rename_i r hr
      split at h
      · rename_i ha
        injection h with h
        have hd : x.domain = d := by rw [← h, State.rewindEdge_domain]
        exact ⟨r, hd ▸ hr, ha, by rw [hd, h]⟩
      · exact nomatch h
    · exact nomatch h
  · rintro ⟨r, hr, ha, hx⟩
    exact ⟨x.domain, by rw [hr]; simp only [ha, if_true]; rw [← hx]⟩

/-- The rebuilt calendar is sorted strictly, so no domain has two entries. -/
theorem State.sorted_rebuildCalendar (s : State) :
    s.rebuildCalendar.calendar.Pairwise fun x y => x.before y = true := by
  rw [State.rebuildCalendar_eq]
  refine Calendar.strict_foldl_insert (fun d e h => ?_) (List.nodup_finRange 48) (fun _ _ _ h => nomatch h) .nil
  unfold State.rewindEdge? at h
  split at h
  · split at h
    · injection h with h
      rw [← h, State.rewindEdge_domain]
    · exact nomatch h
  · exact nomatch h

end Sys2Proof.Machine
end

