-- ==== Sys2Proof/Laws/PerInstr.lean ====
section
/-! SUPPORT. One fact for every command: on which wire its bytes stand. -/

namespace Sys2Proof.Laws.Kinds

open Sys2Proof Sys2Proof.Machine

/-- A command has bytes on at most one of the two wires: a service frame, or a frame of a board's link; and a
frame of a link names the link it came on. -/
def Statement (i : Instr) : Prop :=
  (encodeServiceFrame i = none ∨ encodeLinkFrame i = none) ∧ (encodeLinkFrame i).isSome = i.link?.isSome

theorem powerOnReset : Statement (.powerOnReset) := ⟨.inr rfl, rfl⟩

theorem resetInitialisationComplete : Statement (.resetInitialisationComplete) := ⟨.inr rfl, rfl⟩

theorem haltNAsserted : Statement (.haltNAsserted) := ⟨.inr rfl, rfl⟩

theorem lineActivityDetected (b : BoardNo) : Statement (.lineActivityDetected b) := ⟨.inr rfl, rfl⟩

theorem lossOfSignal (b : BoardNo) : Statement (.lossOfSignal b) := ⟨.inr rfl, rfl⟩

theorem probeAnswerTimeout (b : BoardNo) : Statement (.probeAnswerTimeout b) := ⟨.inr rfl, rfl⟩

theorem echo (b : BoardNo) (number capacityCode : Byte) (arrival : Nat) :
    Statement (.echo b number capacityCode arrival) := ⟨.inl rfl, rfl⟩

theorem frameCheck (b : BoardNo) : Statement (.frameCheck b) := ⟨.inr rfl, rfl⟩

theorem badFrame (b : BoardNo) : Statement (.badFrame b) := ⟨.inr rfl, rfl⟩

theorem error (b : BoardNo) : Statement (.error b) := ⟨.inl rfl, rfl⟩

theorem ack (b : BoardNo) (seq16 : BitVec 16) : Statement (.ack b seq16) := ⟨.inl rfl, rfl⟩

theorem ackTimeout (b : BoardNo) : Statement (.ackTimeout b) := ⟨.inr rfl, rfl⟩

theorem hold (b : BoardNo) (cause : Byte) : Statement (.hold b cause) := ⟨.inl rfl, rfl⟩

theorem release (b : BoardNo) (cause : Byte) : Statement (.release b cause) := ⟨.inl rfl, rfl⟩

theorem holdTimeout (b : BoardNo) : Statement (.holdTimeout b) := ⟨.inr rfl, rfl⟩

theorem stopFrame (b : BoardNo) (code : Byte) : Statement (.stopFrame b code) := ⟨.inl rfl, rfl⟩

theorem request (b : BoardNo) (tag : Tag) (kind : BitVec 7) (params : List Byte) : Statement (.request b tag kind params) := ⟨.inl rfl, rfl⟩

theorem replySent (b : BoardNo) (tag : Tag) : Statement (.replySent b tag) := ⟨.inr rfl, rfl⟩

theorem recordCommandEntersSlot (code : Byte) (payload : List Byte) : Statement (.recordCommandEntersSlot code payload) := ⟨.inr rfl, rfl⟩

theorem unknownRequestKind : Statement (.unknownRequestKind) := ⟨.inr rfl, rfl⟩

theorem unknownCommandCode (code : Option Byte) (payload : List Byte) :
    Statement (.unknownCommandCode code payload) := by
  cases code <;> exact ⟨.inr rfl, rfl⟩

theorem create : Statement (.create) := ⟨.inr rfl, rfl⟩

theorem find : Statement (.find) := ⟨.inr rfl, rfl⟩

theorem lookup : Statement (.lookup) := ⟨.inr rfl, rfl⟩

theorem list : Statement (.list) := ⟨.inr rfl, rfl⟩

theorem listFrom : Statement (.listFrom) := ⟨.inr rfl, rfl⟩

theorem attach : Statement (.attach) := ⟨.inr rfl, rfl⟩

theorem detach : Statement (.detach) := ⟨.inr rfl, rfl⟩

theorem start : Statement (.start) := ⟨.inr rfl, rfl⟩

theorem resume : Statement (.resume) := ⟨.inr rfl, rfl⟩

theorem revise : Statement (.revise) := ⟨.inr rfl, rfl⟩

theorem pause : Statement (.pause) := ⟨.inr rfl, rfl⟩

theorem retire : Statement (.retire) := ⟨.inr rfl, rfl⟩

theorem cancel : Statement (.cancel) := ⟨.inr rfl, rfl⟩

theorem setStop : Statement (.setStop) := ⟨.inr rfl, rfl⟩

theorem advance : Statement (.advance) := ⟨.inr rfl, rfl⟩

theorem run (payload : List Byte) : Statement (.run payload) := ⟨.inr rfl, rfl⟩

theorem step (payload : List Byte) : Statement (.step payload) := ⟨.inr rfl, rfl⟩

theorem stop (payload : List Byte) : Statement (.stop payload) := ⟨.inr rfl, rfl⟩

theorem clear (payload : List Byte) : Statement (.clear payload) := ⟨.inr rfl, rfl⟩

theorem rewind (payload : List Byte) : Statement (.rewind payload) := ⟨.inr rfl, rfl⟩

theorem resync (payload : List Byte) : Statement (.resync payload) := ⟨.inr rfl, rfl⟩

theorem readRun (payload : List Byte) : Statement (.readRun payload) := ⟨.inr rfl, rfl⟩

theorem admitBoard (payload : List Byte) : Statement (.admitBoard payload) := ⟨.inr rfl, rfl⟩

theorem expel (payload : List Byte) : Statement (.expel payload) := ⟨.inr rfl, rfl⟩

theorem retrain (payload : List Byte) : Statement (.retrain payload) := ⟨.inr rfl, rfl⟩

theorem setBoard (payload : List Byte) : Statement (.setBoard payload) := ⟨.inr rfl, rfl⟩

theorem readBoard (payload : List Byte) : Statement (.readBoard payload) := ⟨.inr rfl, rfl⟩

theorem setCabinet (payload : List Byte) : Statement (.setCabinet payload) := ⟨.inr rfl, rfl⟩

theorem identify (payload : List Byte) : Statement (.identify payload) := ⟨.inr rfl, rfl⟩

theorem softReset (payload : List Byte) : Statement (.softReset payload) := ⟨.inr rfl, rfl⟩

theorem readEvents (payload : List Byte) : Statement (.readEvents payload) := ⟨.inr rfl, rfl⟩

theorem setMask (payload : List Byte) : Statement (.setMask payload) := ⟨.inr rfl, rfl⟩

theorem readReply (clocked : Nat) : Statement (.readReply clocked) := ⟨.inr rfl, rfl⟩

theorem haltNNegated : Statement (.haltNNegated) := ⟨.inr rfl, rfl⟩

theorem resetNNegated : Statement (.resetNNegated) := ⟨.inr rfl, rfl⟩

theorem scsNAsserted : Statement (.scsNAsserted) := ⟨.inr rfl, rfl⟩

end Sys2Proof.Laws.Kinds
end

