-- ==== Sys2Proof/Tests/Slice0.lean ====
section
/-! SUPPORT. The package's own tests: the operand checks on ill-formed terms, single steps on small states against the
manual's numbers, and for each statement concrete states and operands that meet the hypotheses of its clauses. -/

namespace Sys2Proof.Tests

set_option Elab.async false

open Sys2Proof.Machine Sys2Proof.Safety

/-! Small states -/

/-- In service, nothing else since reset. -/
def base : State := { State.reset with phase := .ready }

/-- A LINKED member. -/
def linked : Board := { Board.powerOn with
  link := .linked, signal := true, member := true, capacity := some .four, roundTrip := 10 }

/-- The same board with one set outstanding and its timer started at 0. -/
def owing : Board := { linked with outstanding := 1, ackTimer := some ⟨0, 20040⟩ }

/-- Board 7 has this entry. -/
def boardIs (e : Board) : State := base.setBoard 7 e

/-- A primary, period 12, high 5, phase 0, park LOW (spec/02 2.11, step 1). -/
def primary : Domain :=
  ⟨300, .service, .primary ⟨12, 5, 0, .low, none⟩, .low, 0, 0, none, .defined, 0⟩

/-- The primary with companion 1, and the companion with gap 2. -/
def parent : Domain := { primary with source := .primary ⟨12, 5, 0, .low, some 1⟩ }

def companion : Domain := ⟨301, .service, .companion ⟨0, 2⟩, .low, 0, 0, none, .defined, 0⟩

/-- Two records, the rest FREE. -/
def table (x y : Option Domain) : State := (base.setDomain 0 x).setDomain 1 y

/-- A record with its life replaced. -/
def living (r : Domain) (l : Life) : Domain := { r with life := l }

/-- The run is RUNNING with domain 0 due to rise at 12. -/
def running (e : Board) : State :=
  { (boardIs e).setDomain 0 (some (living primary (.active .nothing))) with
    runState := .running, calendar := [⟨12, 0, .rise⟩] }

/-- A record request waits in the service slot. -/
def asks (s : State) (k : RecordKind) (params : List Byte) : State := { s with slot := .waiting k.code params }

/-- One field of a next state. -/
def after {α : Type} (o : Result) (f : State → α) : Option α :=
  match o with
  | .next s => some (f s)
  | .fault _ => none
  | .refused _ => none

theorem base_board (b : BoardNo) : base.board b = Board.powerOn := by
  revert b; decide

theorem base_domain (d : DomainNo) : base.domain d = none := by
  revert d; decide

theorem table_domain (x y : Option Domain) (d : DomainNo) :
    (table x y).domain d = if d = 1 then y else if d = 0 then x else none := by
  simp [table, base_domain]

theorem table_waits (x y : Option Domain) (b : BoardNo) : ((table x y).board b).waitingTag = none := by
  have h : (table x y).board b = base.board b := rfl
  rw [h, base_board]
  decide

/-- The request of `asks` is the next grant. -/
theorem asks_next (x y : Option Domain) (k : RecordKind) (params : List Byte) :
    NextRequest (asks (table x y) k params) ⟨.service, k.code, params, 0, 0⟩ k params := by
  refine ⟨?_, rfl, rfl⟩
  have h : (asks (table x y) k params).nextBoard = none := State.nextBoard_none.mpr (table_waits x y)
  simp only [State.nextGrant, h]
  rfl

/-! Operand checks -/

theorem test_wf_request_of_18_parameters : (Instr.request 0 0 1#7 (List.replicate 18 0#8)).wf = false := by decide
theorem test_wf_record_command_with_another_code : (Instr.recordCommandEntersSlot 0x20#8 []).wf = false := by decide
theorem test_wf_unknown_command_with_a_known_code : (Instr.unknownCommandCode (some 0x0D#8) []).wf = false := by
  decide
theorem test_wf_short_frame_with_a_payload : (Instr.unknownCommandCode none [0#8]).wf = false := by decide

theorem test_wf_bounds : (Instr.echo 0 1#8 0#8 1).wf = true ∧ (Instr.unknownCommandCode none []).wf = true ∧
    (Instr.request 0 0 1#7 (List.replicate 17 0#8)).wf = true ∧ (Instr.recordCommandEntersSlot 0x0E#8 []).wf = true ∧
    (Instr.unknownCommandCode (some 0x0F#8) []).wf = true := by decide

/-- Operands of another row's frame: the frame is that row's (log 16), a STOP command and a malformed link frame. -/
theorem test_frames_under_another_row :
    encodeServiceFrame (.recordCommandEntersSlot 0x22#8 []) = some [0x22#8] ∧ decodeServiceFrame [0x22#8] = .stop [] ∧
    after (execRecordCommandEntersSlot 0x22#8 [] base) (fun t => t.slot) = some (.done 0x22#8 .already []) ∧
    after (execUnknownCommandCode (some 0x02#8) [0#8, 7#8] base) (fun t => t.slot) =
      some (.waiting 0x02#8 [0#8, 7#8]) ∧
    17 < (List.replicate 18 (0#8 : Byte)).length ∧
    after (execRequest 7 0 1#7 (List.replicate 18 0#8) (boardIs linked))
      (fun t => ((t.board 7).link, (t.board 7).lastFault)) = some (.fault, some .badFrame) := by decide +kernel

/-! Bytes -/

/-- ACK 51 from a board: its bytes, and back (R182). -/
theorem test_ack_bytes : encodeLinkFrame (.ack 4 51#16) = some [0x01#8, 0x02#8, 0x00#8, 0x33#8, 0x9A#8, 0x24#8] := by
  decide +kernel

theorem test_ack_read : decodeLinkFrame 4 [0x01#8, 0x02#8, 0x00#8, 0x33#8, 0x9A#8, 0x24#8] 0 = .ack 4 51#16 := by
  decide +kernel

/-! Hypotheses met: the block, resets, the service port -/

theorem test_meets_empty_queue : State.reset.pending = [] ∧ State.reset.dueEvents = [] ∧
    (running linked).pending = [] ∧ (running linked).dueEvents ≠ [] := by decide +kernel

/-- Each due event at its instant: the timers one period before it give none. -/
theorem test_meets_due_events :
    ({ State.reset with phase := .initialising 5000, clock := 5000 } : State).dueEvents = [.resetInitialisationComplete] ∧
    ({ State.reset with phase := .initialising 5000, clock := 4999 } : State).dueEvents = [] ∧
    ({ boardIs { Board.powerOn with link := .training ⟨4, 1, [], 0⟩ } with clock := 10000 } : State).dueEvents =
      [.probeAnswerTimeout 7] ∧
    ({ boardIs owing with clock := 20040 } : State).dueEvents = [.ackTimeout 7] ∧
    ({ boardIs owing with clock := 20039 } : State).dueEvents = [] ∧
    ({ boardIs { linked with held := 1, holdTimer := some 5 } with clock := 5 } : State).dueEvents = [.holdTimeout 7] ∧
    (asks base .create []).dueEvents = [.create] ∧ (asks base .setStop []).dueEvents = [.setStop] ∧
    (boardIs (linked.setSlot 0 (.waiting 0#7 []))).dueEvents = [.unknownRequestKind] ∧
    (boardIs (linked.setSlot 0 (.waiting 15#7 []))).dueEvents = [.unknownRequestKind] ∧
    (running linked).dueEvents = [.advance] := by decide +kernel

theorem test_meets_well_formed : Instr.create.wf = true ∧ (Instr.echo 63 64#8 3#8 10000).wf = true := by decide

theorem test_meets_soft_reset : base.frameStatus ≠ .notReady ∧
    (asks base .list []).frameStatus ≠ .notReady := by decide

/-- RESET_N negated at 0: initialisation ends at 5000 REFCLK periods, with HALT_N either way. -/
theorem test_meets_initialisation :
    State.reset.phase = .resetHeld ∧
    after (execResetNNegated State.reset) State.phase = some (.initialising 5000) ∧
    ({ State.reset with phase := .initialising 5000 } : State).haltAsserted = false ∧
    ({ State.reset with phase := .initialising 5000, haltAsserted := true } : State).runState = .stopped := by
  decide

/-- The two initialisation commands outside their phases. -/
theorem test_meets_out_of_phase : base.phase ≠ .resetHeld ∧ (∀ t, base.phase ≠ .initialising t) ∧
    (∀ t, State.reset.phase ≠ .initialising t) :=
  ⟨by decide, fun _ => by simp [base], fun _ => by simp [State.reset]⟩

theorem test_meets_halt_line :
    (base.haltAsserted = false ∧ base.phase = .ready ∧ base.runState ≠ .halted) ∧
    (({ base with runState := .halted } : State).haltAsserted = false ∧ base.phase = .ready) ∧
    (State.reset.haltAsserted = false ∧ State.reset.phase ≠ .ready) ∧
    ({ base with haltAsserted := true } : State).haltAsserted = true := by decide

theorem test_meets_status_byte :
    State.reset.phase ≠ .ready ∧
    (asks base .list []).slot = .waiting 0x04#8 [] ∧ (asks base .list []).phase = .ready ∧
    (∀ code payload, base.slot ≠ .waiting code payload) ∧
    (∀ code payload, ({ base with slot := .done 1#8 .ok [] } : State).slot ≠ .waiting code payload) :=
  ⟨by decide, rfl, rfl, (fun _ _ h => nomatch h), fun _ _ h => nomatch h⟩

theorem test_meets_unready_frames :
    (asks base .list []).frameStatus ≠ .ready ∧ encodeServiceFrame (.clear []) = some [0x23#8] ∧
    State.reset.frameStatus = .notReady ∧ encodeServiceFrame (.softReset []) = some [0x4F#8] := by decide

/-- SDO before, within and after the frame of a STOP command (R170). -/
theorem test_meets_sdo :
    base.frame = none ∧ base.sdoPin = none ∧
    after (execScsNAsserted base) State.sdoPin = some (some [0x80#8]) ∧
    after (execScsNAsserted base) State.sdoBits =
      some (some [true, false, false, false, false, false, false, false]) ∧
    encodeServiceFrame (.stop []) = some [0x22#8] ∧
    after (execStop [] { base with frame := some .ready, sdo := [0x80#8] }) (fun t => (t.frame, t.sdoPin)) =
      some (none, none) := by decide +kernel

/-- A frame of seven clocks, READY: SDO goes to high impedance and nothing else happens (R170, R171). -/
theorem test_meets_short_frames :
    decodeServiceBits [] = .unknownCommandCode none [] ∧
    decodeServiceBits [false, false, true, false, false, false, true] = .unknownCommandCode none [] ∧
    after (execUnknownCommandCode none [] { base with frame := some .ready, sdo := [0x80#8] })
      (fun t => (t.frame, t.sdoPin, t.slot)) = some (none, none, .empty) := by decide +kernel

/-- LOOKUP(4) clocked in most-significant bit first, three more bits after it, and the first bit as SCK and SDI show it. -/
theorem test_meets_bits :
    Bytes.bits [0x03#8] = [false, false, false, false, false, false, true, true] ∧
    decodeServiceBits ([false, false, false, false, false, false, true, true,
      false, false, false, false, false, true, false, false] ++ [true, true, true]) =
      .recordCommandEntersSlot 0x03#8 [0x04#8] ∧
    ([true, true, true] : List Bool).length < 8 ∧
    Bytes.sampled false [(false, true), (true, true), (true, false), (false, false), (true, false)] = [true, false] := by
  decide +kernel

theorem test_meets_record_commands : base.frameStatus = .ready ∧
    ((0x01#8 : Byte), (List.replicate 17 (0#8 : Byte)).length) ∈ [((0x01#8 : Byte), 17)] ∧
    ((0x0E#8 : Byte), (List.replicate 6 (0#8 : Byte)).length) ∈ [((0x0D#8 : Byte), 1), (0x0E#8, 6)] := by decide

theorem test_meets_malformed : Codes.known 0x00#8 = false ∧ Codes.known 0x61#8 = false ∧
    RecordKind.ofCode 0x01#8 = some .create ∧ ([] : List Byte).length ≠ RecordKind.create.serviceLength ∧
    ([0#8, 0#8] : List Byte).length ≠ 1 := by decide

theorem test_meets_read_reply : base.slot = .empty ∧
    ({ base with slot := .done 1#8 .ok [7#8] } : State).frameStatus = .ready := by decide

theorem test_meets_cabinet :
    ((4#8 : Byte).toNat = 4 ∧ (1 : Nat) ≤ (31#8 : Byte).toNat ∧ (31#8 : Byte).toNat ≤ 31) ∧
    ¬ (((5#8 : Byte).toNat = 4 ∨ (5#8 : Byte).toNat = 8 ∨ (5#8 : Byte).toNat = 16) ∧ 1 ≤ (0#8 : Byte).toNat) ∧
    ((7#8 : Byte).toNat ≤ 7 ∧ 7 < (8#8 : Byte).toNat) := by decide

/-! Hypotheses met: links -/

def training (n : Nat) (run : List Nat) : Board :=
  { Board.powerOn with link := .training ⟨4, n, run, 0⟩, signal := true }

def faulted : Board := { linked with link := .fault, lastFault := some .ackTimeout, txQueue := [.holdAnswer 0 .taken 0] }

theorem test_meets_line_events :
    (base.board 7).link = .down ∧ base.phase = .ready ∧ State.reset.phase ≠ .ready ∧
    ((boardIs (training 1 [])).board 7).link = .training ⟨4, 1, [], 0⟩ ∧
    ((boardIs faulted).board 7).link = .fault ∧ ((boardIs linked).board 7).link = .linked := by decide

/-- The fourth agreeing round trip, the first of the attempt, and the 64th probe with no agreement. -/
theorem test_meets_answered_probes :
    (agree [250, 251, 252] 250).length = 4 ∧ (agree [] 1).length ≠ 4 ∧ (1 : Nat) < 64 ∧
    (agree [250] 10000).length ≠ 4 ∧ (64#8 : Byte).toNat = 64 ∧ Capacity.ofCode 3#8 = some .fortyEight := by decide

/-- The round trip is measured from the PROBE, sent at 300, to the ECHO's reception, at its arrival or with the clock already
past it: at both ends of the wait, and in the PROBE's own unit (R116, R117; log 20). -/
theorem test_meets_measured_round_trips :
    let at_ (clock arrival : Nat) := after
      (execEcho 7 3#8 1#8 arrival
        { boardIs { training 3 [] with link := .training ⟨4, 3, [250], 300⟩ } with clock := clock })
      fun t => (t.clock, (t.board 7).link)
    at_ 300 1 = some (301, .training ⟨4, 4, [1], 301⟩) ∧ at_ 550 251 = some (551, .training ⟨4, 4, [250, 251], 551⟩) ∧
    at_ 715 1 = some (715, .training ⟨4, 4, [415], 715⟩) ∧ at_ 600 9000 = some (9300, .training ⟨4, 4, [9000], 9300⟩) ∧
    at_ 300 10000 = some (10300, .training ⟨4, 4, [10000], 10300⟩) ∧
    at_ 10300 1 = some (10300, .training ⟨4, 4, [10000], 10300⟩) ∧
    at_ 300 0 = some (300, .training ⟨4, 4, [1], 300⟩) := by decide +kernel

/-- An ECHO that comes one unit after the wait of probe 3 meets probe 4, which is missing too when the number is 3 and
answered when it is 4; one that comes after the 64th wait finds the link in FAULT (R116, R119). -/
theorem test_meets_late_receptions :
    let at_ (probe : Nat) (number : Byte) (arrival : Nat) := after
      (execEcho 7 number 1#8 arrival (boardIs { training probe [] with link := .training ⟨4, probe, [250], 300⟩ }))
      fun t => (t.clock, (t.board 7).link)
    at_ 3 3#8 10001 = some (10301, .training ⟨4, 5, [], 10301⟩) ∧
    at_ 3 4#8 10001 = some (10301, .training ⟨4, 5, [1], 10301⟩) ∧
    at_ 63 63#8 20001 = some (20300, .fault) ∧
    after (execFrameCheck 7 { boardIs { training 3 [] with link := .training ⟨4, 3, [250], 300⟩ } with clock := 10301 })
      (fun t => (t.clock, (t.board 7).link)) = some (10301, .training ⟨4, 5, [], 10301⟩) ∧
    after (execProbeAnswerTimeout 7 (boardIs { training 3 [] with link := .training ⟨4, 3, [250], 300⟩ }))
      (fun t => (t.clock, (t.board 7).link)) = some (10300, .training ⟨4, 4, [], 10300⟩) := by decide +kernel

/-- Probe 8 of spec/06 6.9 completes the run 413, 414, 415 with 413: round trip 415, capacity 8, allowance 21660. -/
theorem test_meets_worked_training :
    after (execEcho 7 8#8 1#8 413 (boardIs (training 8 [413, 414, 415])))
      (fun t => ((t.board 7).link, (t.board 7).roundTrip, (t.board 7).capacity, (t.board 7).txQueue)) =
      some (.linked, 415, some .eight, [.linkReady 7 21660 415]) := by decide +kernel

theorem test_meets_missing_probes :
    ((boardIs (training 64 [])).board 7).link = .training ⟨4, 64, [], 0⟩ ∧
    ((2#8 : Byte).toNat ≠ 1 ∧ Capacity.ofCode 4#8 = none) := by decide

theorem test_meets_leaving_linked :
    ((boardIs { linked with member := false }).board 7).member = false ∧ ((boardIs linked).board 7).member = true ∧
    ({ boardIs linked with runState := .halted } : State).runState = .halted ∧ (boardIs linked).runState ≠ .halted := by
  decide

theorem test_meets_fault_causes :
    ((boardIs owing).board 7).ackTimer = some ⟨0, 20040⟩ ∧
    ((boardIs { linked with held := 1, holdTimer := some 5000000 }).board 7).holdTimer = some 5000000 := by decide

theorem test_meets_ruled_out :
    (∀ t, (base.board 7).link ≠ .training t) ∧ (base.board 7).link = .down ∧ (base.board 7).link ≠ .linked ∧
    (base.board 7).ackTimer = none ∧ (base.board 7).holdTimer = none ∧ (∀ g, base.nextGrant = some g → False) := by
  refine ⟨?_, by decide, by decide, by decide, by decide, ?_⟩
  · intro t h
    rw [base_board] at h
    exact nomatch h
  · have h : base.nextBoard = none := State.nextBoard_none.mpr fun b => by rw [base_board]; decide
    intro g hg
    simp only [State.nextGrant, h] at hg
    exact nomatch hg

/-! Hypotheses met: delivery, holds, requests -/

/-- Two sets of 51 outstanding: the oldest is 50, and 51 is newer (R138, R141). -/
theorem test_meets_acks :
    ((boardIs owing).board 7).link = .linked ∧ ((boardIs owing).board 7).member = true ∧
    0 < ((boardIs owing).board 7).outstanding ∧
    (50#16 : BitVec 16) = ((51#32 : BitVec 32) - BitVec.ofNat 32 2 + 1).setWidth 16 ∧
    (51#16 : BitVec 16) ≠ ((51#32 : BitVec 32) - BitVec.ofNat 32 2 + 1).setWidth 16 ∧
    ({ boardIs owing with runState := .draining } : State).runState = .draining ∧
    membersClear ((boardIs owing).setBoard 7 { owing with outstanding := 0 }) ∧ ¬ membersClear (boardIs owing) := by
  unfold membersClear
  decide +kernel

theorem test_meets_copies : ((boardIs linked).board 7).capacity = some .four ∧ 0 < Capacity.four.entries ∧
    ((boardIs linked).board 7).member = true ∧ (base.board 7).member = false := by decide

theorem test_meets_holds :
    (3 < (4#8 : Byte).toNat ∧ (3#8 : Byte).toNat ≤ 3) ∧ ((boardIs faulted).board 7).link = .fault ∧
    ((boardIs { linked with member := false }).board 7).member = false ∧
    Bits.has ((boardIs { linked with held := 8 }).board 7).held (3#8 : Byte).toNat = true ∧
    Bits.has ((boardIs linked).board 7).held (3#8 : Byte).toNat = false ∧ (base.board 7).link = .down := by decide

theorem test_meets_releases :
    Bits.has ((boardIs { faulted with timedOut := 1 }).board 7).timedOut (0#8 : Byte).toNat = true ∧
    Bits.has ((boardIs faulted).board 7).timedOut (0#8 : Byte).toNat = false ∧
    Bits.has ((boardIs linked).board 7).held (0#8 : Byte).toNat = false ∧
    Bits.has ((boardIs { linked with held := 1 }).board 7).held (0#8 : Byte).toNat = true := by decide

theorem test_meets_stop_frames :
    (boardIs linked).runState ≠ .running ∧ (running owing).runState = .running ∧ ¬ membersClear (running owing) ∧
    membersClear (running linked) := by
  unfold membersClear
  decide +kernel

/-- Replies to both slots, the other slot's ahead; a slot REPLIED with no reply queued; and a SLOT_BUSY reply alone. -/
theorem test_meets_replies_ahead_and_missing :
    let queued (l : List Frame) : State := boardIs { (linked.setSlot 0 .replied).setSlot 1 .replied with txQueue := l }
    after (execReplySent 7 1 (queued [.reply 0 3#7 .ok [], .reply 1 3#7 .ok [], .holdAnswer 0 .taken 0]))
      (fun s => ((s.board 7).txQueue, (s.board 7).slot 0, (s.board 7).slot 1)) =
      some ([.holdAnswer 0 .taken 0], .empty, .empty) ∧
    after (execReplySent 7 1 (queued [.reply 0 3#7 .ok []])) id = some (queued [.reply 0 3#7 .ok []]) ∧
    after (execReplySent 7 1 (queued [.reply 1 3#7 .slotBusy []])) id = some (queued [.reply 1 3#7 .slotBusy []]) := by
  decide +kernel

theorem test_meets_requests : ((boardIs linked).board 7).slot 1 = .empty ∧
    ((boardIs (linked.setSlot 0 (.waiting 3#7 []))).board 7).slot 0 ≠ .empty ∧
    (List.replicate 17 (0#8 : Byte)).length ≤ 17 := by decide

/-- The reply behind a hold answer: both have gone once it has been sent. -/
def replying : Board := { linked.setSlot 1 .replied with
  txQueue := [.holdAnswer 0 .taken 0, .reply 1 3#7 .ok [], .notice (.retired 0)] }

theorem test_meets_reply_sent :
    (replying.slot 1 = .replied ∧ Status.ok ≠ .slotBusy) ∧
    (∀ f ∈ [Frame.holdAnswer 0 .taken 0], ∀ t, f.occupies t = false) ∧
    after (execReplySent 7 1 (boardIs replying)) (fun s => ((s.board 7).txQueue, (s.board 7).slot 1)) =
      some ([.notice (.retired 0)], .empty) := by decide +kernel

/-- Board 7 waits on both tags, and the service waits too. -/
def busy (escalation : Nat) : State := { asks (boardIs ((linked.setSlot 0 (.waiting 3#7 [])).setSlot 1 (.waiting 4#7 [])))
  .list [] with escalation := escalation }

theorem test_meets_arbiter :
    (asks base .list []).slot = .waiting 0x04#8 [] ∧ (∀ b, ((asks base .list []).board b).waitingTag = none) ∧
    (∃ b, ((busy 3).board b).waitingTag ≠ none) ∧ (busy 3).escalation < (busy 3).escalationE ∧
    (busy 4).escalationE ≤ (busy 4).escalation ∧ ((busy 4).board 7).slot 0 = .waiting 3#7 [] ∧
    ((boardIs (linked.setSlot 1 (.waiting 4#7 []))).board 7).slot 1 = .waiting 4#7 [] := by decide +kernel

/-- The search wraps: from 8, board 7 is the 64th board looked at. -/
theorem test_meets_round_robin : (7 : Nat) = ((8 : BoardNo).val + 63) % 64 ∧
    (({ busy 4 with pointer := 8 } : State).nextGrant.map Grant.pointer) = some 8 := by decide +kernel

theorem test_meets_replies_and_notices : ((boardIs linked).board 7).link = .linked ∧
    Bits.has (Bits.add (0 : BoardSet) 7) 7 = true ∧ Bits.has (0 : BoardSet) 7 = false := by decide

/-! Hypotheses met: record requests -/

def createPrimary : List Byte := [0x01#8, 0x2C#8, 0#8, 0#8, 12#8, 0#8, 5#8, 0#8, 0#8, 0#8, 0#8, 0#8, 0#8, 0#8, 0#8, 0#8, 0#8]

def createCompanion (gap : Byte) : List Byte :=
  [0x01#8, 0x2D#8, 1#8, 0#8, 0#8, 0#8, 0#8, 0#8, 0#8, 0#8, 0#8, gap, 0#8, 0#8, 0#8, 0#8, 0#8]

/-- What one grant to the service answers. -/
def answers (f : State → Result) (k : RecordKind) (s : State) (params : List Byte) : Option (Status × List Byte) :=
  match f (asks s k params) with
  | .next t =>
    match t.slot with
    | .done _ status data => some (status, data)
    | .empty => none
    | .waiting _ _ => none
  | .fault _ => none
  | .refused _ => none

/-- CREATE of the first primary and of its companion at the widest gap, 3 (R8, R25, R26). -/
theorem test_meets_create :
    NextRequest (asks (table none none) .create createPrimary) ⟨.service, 1#8, createPrimary, 0, 0⟩ .create
      createPrimary ∧
    parseCreate createPrimary = some ⟨300, .primary ⟨12, 5, 0, .low, none⟩, none⟩ ∧
    parseCreate (createCompanion 3#8) = some ⟨301, .companion ⟨0, 3⟩, none⟩ ∧
    (∀ d, ∀ r ∈ (table (some primary) none).domain d, r.label ≠ 301) ∧
    (∀ e : DomainNo, e.val < (1 : DomainNo).val → (table (some primary) none).domain e ≠ none) ∧
    5 + 2 * 3 + 1 ≤ 12 ∧
    answers execCreate .create (table none none) createPrimary = some (.ok, [0#8]) ∧
    answers execCreate .create (table (some primary) none) (createCompanion 3#8) = some (.ok, [1#8]) :=
  ⟨asks_next _ _ _ _, by decide +kernel⟩

/-- Every status of R27, from a state that passes the checks before it. -/
theorem test_meets_create_refusals :
    answers execCreate .create base (List.replicate 17 0#8) = some (.badParam, []) ∧
    answers execCreate .create { base with records := Vector.replicate 48 (some primary) } createPrimary =
      some (.tableFull, []) ∧
    answers execCreate .create (table (some primary) none) createPrimary = some (.duplicate, []) ∧
    answers execCreate .create base (createCompanion 1#8) = some (.noSuch, []) ∧
    answers execCreate .create (table (some { parent with source := .companion ⟨1, 1⟩ }) none) (createCompanion 1#8) =
      some (.wrongState, []) ∧
    answers execCreate .create (table (some (living primary (.active .retire))) none) (createCompanion 1#8) =
      some (.parentIdle, []) ∧
    answers execCreate .create (table (some primary) none) (createCompanion 4#8) = some (.gap, []) := by decide +kernel

/-- CREATE's parameter values at both ends of their ranges, and one past each end (R27, R185). -/
theorem test_meets_create_parameters :
    let p (label period high phase : Nat) (kind park parent gap action : Byte) (count : Nat) : List Byte :=
      Bytes.be 2 label ++ [kind] ++ Bytes.be 2 period ++ Bytes.be 2 high ++ Bytes.be 2 phase ++
        [park, parent, gap, action] ++ Bytes.be 4 count
    (p 1 2 1 1 0#8 1#8 0#8 0#8 0#8 0).length = 17 ∧
    parseCreate (p 1 2 1 1 0#8 1#8 0#8 0#8 0#8 0) = some ⟨1, .primary ⟨2, 1, 1, .high, none⟩, none⟩ ∧
    parseCreate (p 65535 65535 65534 65534 0#8 0#8 0#8 0#8 3#8 (2 ^ 32 - 1)) =
      some ⟨65535, .primary ⟨65535, 65534, 65534, .low, none⟩, some ⟨2 ^ 32 - 1, .notify⟩⟩ ∧
    parseCreate (p 1 0 0 0 1#8 0#8 47#8 255#8 1#8 1) = some ⟨1, .companion ⟨47, 255⟩, some ⟨1, .pauseDomain⟩⟩ ∧
    parseCreate (p 1 0 0 0 1#8 0#8 0#8 1#8 2#8 1) = some ⟨1, .companion ⟨0, 1⟩, some ⟨1, .stopCabinet⟩⟩ ∧
    [p 0 2 1 1 0#8 0#8 0#8 0#8 0#8 0, p 1 2 1 1 0#8 0#8 0#8 0#8 4#8 1, p 1 2 1 1 0#8 0#8 0#8 0#8 0#8 1,
      p 1 2 1 1 0#8 0#8 0#8 0#8 1#8 0, p 1 1 1 0 0#8 0#8 0#8 0#8 0#8 0, p 1 2 0 1 0#8 0#8 0#8 0#8 0#8 0,
      p 1 2 2 1 0#8 0#8 0#8 0#8 0#8 0, p 1 2 1 2 0#8 0#8 0#8 0#8 0#8 0, p 1 2 1 1 0#8 2#8 0#8 0#8 0#8 0,
      p 1 0 0 0 1#8 0#8 48#8 1#8 0#8 0, p 1 0 0 0 1#8 0#8 47#8 0#8 0#8 0, p 1 2 1 1 2#8 0#8 0#8 0#8 0#8 0,
      List.replicate 16 1#8, List.replicate 18 1#8].all (fun x => (parseCreate x).isNone) = true := by decide +kernel

/-- What board 7 is answered when its request with tag 0 is granted, over one record. -/
def answersBoard (f : State → Result) (kind : BitVec 7) (r : Option Domain) (params : List Byte) : Option (List Frame) :=
  after (f ((boardIs (linked.setSlot 0 (.waiting kind params))).setDomain 0 r)) fun s => (s.board 7).txQueue

/-- LIST, LIST FROM and LOOKUP by the length and the value of their parameters (R22, R32, R162, R185). -/
theorem test_meets_query_lengths :
    answersBoard execList 4#7 none [0#8] = some [.reply 0 4#7 .badParam []] ∧
    answersBoard execListFrom 5#7 none [] = some [.reply 0 5#7 .badParam []] ∧
    answersBoard execListFrom 5#7 none [0#8, 0#8] = some [.reply 0 5#7 .badParam []] ∧
    answersBoard execListFrom 5#7 none [48#8] = some [.reply 0 5#7 .denied []] ∧
    answersBoard execLookup 3#7 none [] = some [.reply 0 3#7 .badParam []] ∧
    answersBoard execLookup 3#7 none [0#8, 0#8] = some [.reply 0 3#7 .badParam []] ∧
    answers execListFrom .listFrom base [48#8] = some (.badParam, []) ∧
    answers execListFrom .listFrom base [] = some (.badParam, []) := by decide +kernel

theorem test_meets_queries :
    NextRequest (asks (table (some primary) none) .find [0x01#8, 0x2C#8])
      ⟨.service, 2#8, [0x01#8, 0x2C#8], 0, 0⟩ .find [0x01#8, 0x2C#8] ∧
    (∀ e, ∀ q ∈ (table (some primary) none).domain e, q.label = primary.label → e = 0) ∧
    answers execFind .find (table (some primary) none) [0x01#8, 0x2C#8] = some (.ok, [0#8]) ∧
    answers execFind .find (table (some primary) none) [0x01#8, 0x2D#8] = some (.notFound, []) ∧
    answers execFind .find base [0#8, 0#8] = some (.badParam, []) ∧
    answers execLookup .lookup base [47#8] = some (.noSuch, []) ∧
    answers execLookup .lookup base [48#8] = some (.badParam, []) ∧
    (answers execLookup .lookup (table (some primary) none) [0#8]).map (fun x => (x.1, x.2.length)) = some (.ok, 53) ∧
    (answers execList .list (table (some primary) none) []).map Prod.fst = some .ok ∧
    answers execListFrom .listFrom (table (some primary) none) [47#8] = some (.endOfList, []) ∧
    after (execList (boardIs (linked.setSlot 0 (.waiting 4#7 [])))) (fun s => (s.board 7).txQueue) =
      some [.reply 0 4#7 .denied []] :=
  ⟨asks_next _ _ _ _, by decide +kernel⟩

/-- Board 63 attached by the service, and by itself; attached already; and not attached (R33 to R35). -/
theorem test_meets_subscriptions :
    (63#8 : Byte).toNat = (63 : BoardNo).val ∧ Bits.has primary.subscribers 63 = false ∧
    Bits.has (Bits.add primary.subscribers 63) 63 = true ∧
    answers execAttach .attach (table (some primary) none) [0#8, 63#8] = some (.ok, [0#8, 0#8, 0#8, 0#8, 0#8]) ∧
    answers execDetach .detach (table (some primary) none) [0#8, 63#8] = some (.already, []) ∧
    parseSubscription (.board 63) [0#8] = some (0, 63) := by decide +kernel

theorem test_meets_start_and_resume :
    NextRequest (asks (table (some primary) none) .start [0#8]) ⟨.service, 8#8, [0#8], 0, 0⟩ .start [0#8] ∧
    mayChange ⟨.service, 8#8, [0#8], 0, 0⟩ primary ∧
    answers execStart .start (table (some primary) none) [0#8] = some (.ok, Bytes.be 8 12) ∧
    answers execResume .resume (table (some (living primary (.paused .count))) none) [0#8] = some (.ok, Bytes.be 8 12) ∧
    answers execStart .start (table (some (living primary (.paused .count))) none) [0#8] = some (.wrongState, []) ∧
    answers execResume .resume (table (some primary) none) [0#8] = some (.wrongState, []) ∧
    answers execStart .start (table (some parent) (some companion)) [1#8] = some (.parentIdle, []) ∧
    answers execResume .resume (table (some parent) (some (living companion (.paused .requested)))) [1#8] =
      some (.parentIdle, []) ∧
    (answers execStart .start (table (some (living parent (.active .nothing))) (some companion)) [1#8]).map Prod.fst =
      some .ok :=
  ⟨asks_next _ _ _ _, .inl rfl, by decide +kernel⟩

/-- First edges at time 0 of the primary, of its park-HIGH form, and of a companion under a LOW and a HIGH parent. -/
theorem test_meets_first_edges :
    base.firstEdge 0 primary = ⟨12, 0, .rise⟩ ∧
    base.firstEdge 0 { primary with source := .primary ⟨12, 5, 0, .high, none⟩ } = ⟨5, 0, .fall⟩ ∧
    (table (some parent) none).firstEdge 1 companion = ⟨7, 1, .rise⟩ ∧
    ({ table (some { parent with level := .high }) none with calendar := [⟨5, 0, .fall⟩] } : State).firstEdge 1 companion =
      ⟨7, 1, .rise⟩ := by decide +kernel

def reviseTo (period high gap : Byte) : List Byte := [0#8, 0#8, period, 0#8, high, 0#8, 0#8, 0#8, gap]

theorem test_meets_standing_records :
    parseRevise (reviseTo 20#8 8#8 0#8) = some ⟨0, 20, 8, none, 0⟩ ∧ primary.isActive = false ∧
    answers execRevise .revise (table (some primary) none) (reviseTo 20#8 8#8 0#8) = some (.ok, [0#8, 1#8]) ∧
    answers execRevise .revise (table (some parent) (some companion)) (1#8 :: (reviseTo 0#8 0#8 3#8).tail) =
      some (.ok, [0#8, 1#8]) ∧
    answers execRetire .retire (table (some primary) none) [0#8] = some (.ok, []) ∧
    answers execRetire .retire (table (some parent) (some companion)) [1#8] = some (.ok, []) ∧
    answers execRetire .retire (table (some parent) (some companion)) [0#8] = some (.dependent, []) ∧
    answers execPause .pause (table (some primary) none) [0#8] = some (.wrongState, []) ∧
    answers execPause .pause (table (some (living primary (.paused .count))) none) [0#8] = some (.already, []) ∧
    answers execPause .pause (table (some (living parent (.active .nothing))) (some (living companion (.active .nothing))))
      [0#8] = some (.dependent, []) ∧
    answers execCancel .cancel (table (some primary) none) [0#8] = some (.already, []) := by decide +kernel

/-- REVISE's parameter values at both ends of their ranges, and one past each end (R48, R185). -/
theorem test_meets_revise_parameters :
    let p (d : Byte) (period high : Nat) (present : Byte) (phase : Nat) (gap : Byte) : List Byte :=
      [d] ++ Bytes.be 2 period ++ Bytes.be 2 high ++ [present] ++ Bytes.be 2 phase ++ [gap]
    (p 47#8 2 1 1#8 1 0#8).length = 9 ∧
    parseRevise (p 47#8 2 1 1#8 1 0#8) = some ⟨47, 2, 1, some 1, 0⟩ ∧
    parseRevise (p 0#8 65535 65534 0#8 65535 255#8) = some ⟨0, 65535, 65534, none, 255⟩ ∧
    parseRevise (p 0#8 0 65535 1#8 65535 0#8) = some ⟨0, 0, 65535, some 65535, 0⟩ ∧
    [p 48#8 2 1 0#8 0 0#8, p 0#8 2 1 2#8 0 0#8, p 0#8 1 0 0#8 0 0#8, p 0#8 2 2 0#8 0 0#8, p 0#8 2 1 1#8 2 0#8,
      List.replicate 8 0#8, List.replicate 10 0#8].all (fun x => (parseRevise x).isNone) = true := by decide +kernel

/-- REVISE refused after access, on each kind of record, standing and ACTIVE (R46, R47, R48). -/
theorem test_meets_revise_refusals :
    let at0 (x y : Option Domain) (p : List Byte) := (answers execRevise .revise (table x y) p).map Prod.fst
    let c (gap : Byte) : List Byte := [1#8, 0#8, 0#8, 0#8, 0#8, 0#8, 0#8, 0#8, gap]
    let stops : List Life := [.active (.pause .requested), .active .retire]
    [at0 (some primary) none (reviseTo 20#8 8#8 1#8), at0 (some primary) none (reviseTo 0#8 8#8 0#8),
      at0 (some primary) none (reviseTo 20#8 0#8 0#8),
      at0 (some (living primary (.active .nothing))) none [0#8, 0#8, 20#8, 0#8, 8#8, 1#8, 0#8, 0#8, 0#8],
      at0 (some parent) (some companion) (c 0#8),
      at0 (some parent) (some companion) [1#8, 0#8, 20#8, 0#8, 0#8, 0#8, 0#8, 0#8, 3#8]] =
      List.replicate 6 (some .badParam) ∧
    stops.map (fun l => at0 (some (living primary l)) none (reviseTo 20#8 8#8 0#8)) = [some .conflict, some .conflict] ∧
    stops.map (fun l => at0 (some (living parent (.active .nothing))) (some (living companion l)) (c 3#8)) =
      [some .conflict, some .conflict] ∧
    [at0 (some parent) (some companion) (reviseTo 12#8 8#8 0#8),
      at0 (some parent) (some (living companion (.active (.reviseCompanion 3)))) (reviseTo 12#8 6#8 0#8),
      at0 (some parent) (some companion) (c 4#8),
      at0 (some (living parent (.active (.revisePrimary 12 6)))) (some companion) (c 3#8),
      at0 (some (living parent (.active .nothing))) (some (living companion (.active .nothing))) (c 4#8)] =
      List.replicate 5 (some .gap) ∧
    at0 (some parent) (some companion) (reviseTo 12#8 7#8 0#8) = some .ok ∧
    at0 (some (living parent (.active (.revisePrimary 12 5)))) (some companion) (c 3#8) = some .ok := by decide +kernel

/-- What REVISE leaves pending for each kind (R50). -/
theorem test_meets_revise_pending :
    ReviseParams.pending ⟨0, 20, 8, none, 0⟩ primary = .revisePrimary 20 8 ∧
    ReviseParams.pending ⟨1, 0, 0, none, 3⟩ companion = .reviseCompanion 3 ∧
    ReviseParams.fits ⟨0, 20, 8, none, 0⟩ primary = true ∧ ReviseParams.fits ⟨1, 0, 0, none, 3⟩ companion = true ∧
    (table (some parent) (some companion)).reviseGapOk ⟨0, 12, 7, none, 0⟩ parent = true ∧
    (table (some parent) (some companion)).reviseGapOk ⟨1, 0, 0, none, 3⟩ companion = true := by decide +kernel

/-- One status of each row of the slot table (R46). -/
theorem test_meets_pending_slot :
    [Pending.nothing, .revisePrimary 20 8, .pause .requested, .retire].map (fun p =>
      [(RecordKind.pause, execPause), (.retire, execRetire), (.cancel, execCancel)].map fun c =>
        (answers c.2 c.1 (table (some (living primary (.active p))) none) [0#8]).map Prod.fst) =
      [[some .ok, some .ok, some .already], [some .conflict, some .upgraded, some .ok],
        [some .already, some .upgraded, some .ok], [some .conflict, some .already, some .conflict]] ∧
    [Pending.nothing, .revisePrimary 20 8, .pause .requested, .retire].map (fun p =>
      (answers execRevise .revise (table (some (living primary (.active p))) none) (reviseTo 20#8 8#8 0#8)).map Prod.fst) =
      [some .ok, some .replaced, some .conflict, some .conflict] ∧
    answers execRevise .revise (table (some (living parent (.active .nothing))) (some companion)) (reviseTo 12#8 8#8 0#8) =
      some (.gap, []) := by decide +kernel

theorem test_meets_set_stop :
    [[0#8, 0#8, 0#8, 0#8, 0#8, 0#8], [0#8, 1#8, 0#8, 0#8, 0#8, 1#8], [0#8, 2#8, 0xFF#8, 0xFF#8, 0xFF#8, 0xFF#8],
      [0#8, 3#8, 0#8, 0#8, 0#8, 1#8], [0#8, 0#8, 0#8, 0#8, 0#8, 1#8], [0#8, 1#8, 0#8, 0#8, 0#8, 0#8],
      [0#8, 4#8, 0#8, 0#8, 0#8, 1#8], [48#8, 0#8, 0#8, 0#8, 0#8, 0#8], [1#8, 0#8, 0#8, 0#8, 0#8, 0#8]].map (fun p =>
        (answers execSetStop .setStop (table (some primary) none) p).map Prod.fst) =
      [some .ok, some .ok, some .ok, some .ok, some .badParam, some .badParam, some .badParam, some .badParam,
        some .noSuch] := by decide +kernel

/-- A board that does not own the record asks to start it, and asks with an unknown kind (R22, R165). -/
theorem test_meets_checks_in_order :
    (((boardIs (linked.setSlot 0 (.waiting 8#7 [0#8]))).setDomain 0 (some primary)).nextGrant =
      some ⟨.board 7 0, 8#8, [0#8], 8, 0⟩) ∧
    (¬ mayChange ⟨.board 7 0, 8#8, [0#8], 8, 0⟩ primary) ∧
    ((boardIs (linked.setSlot 1 (.waiting 15#7 []))).nextGrant.map Grant.code) = some 0x0F#8 ∧
    RecordKind.ofCode 0x0F#8 = none ∧
    answers execStart .start base [47#8] = some (.noSuch, []) ∧
    answers execStart .start base [48#8] = some (.badParam, []) ∧
    answers execStart .start base [] = some (.badParam, []) := by
  unfold mayChange
  decide +kernel

/-- The first checks of ATTACH, DETACH and REVISE, from the service and from a board (R22, R23, R33, R34, R48). -/
theorem test_meets_first_checks :
    [(RecordKind.attach, execAttach), (.detach, execDetach)].map (fun k =>
      [[0#8], [48#8, 63#8], [47#8, 64#8], [47#8, 63#8]].map fun p => (answers k.2 k.1 base p).map Prod.fst) =
      List.replicate 2 [some .badParam, some .badParam, some .badParam, some .noSuch] ∧
    [[0#8, 7#8], [48#8], [47#8]].map (answersBoard execAttach 6#7 none) =
      [Status.badParam, .badParam, .noSuch].map (fun x => some [.reply 0 6#7 x []]) ∧
    [[0#8, 7#8], [48#8], [47#8]].map (answersBoard execDetach 7#7 none) =
      [Status.badParam, .badParam, .noSuch].map (fun x => some [.reply 0 7#7 x []]) ∧
    (answers execRevise .revise base (List.replicate 8 0#8)).map Prod.fst = some .badParam ∧
    (answers execRevise .revise base (48#8 :: List.replicate 8 0#8)).map Prod.fst = some .badParam ∧
    (answers execRevise .revise base (47#8 :: List.replicate 8 0#8)).map Prod.fst = some .noSuch ∧
    answersBoard execRevise 10#7 (some primary) (reviseTo 20#8 8#8 0#8) = some [.reply 0 10#7 .denied []] := by
  decide +kernel

/-- UNKNOWN_REQUEST_KIND while the next request's kind is known. -/
theorem test_meets_known_kind : (asks base .list []).nextGrant = some ⟨.service, 4#8, [], 0, 0⟩ ∧
    RecordKind.ofCode 4#8 ≠ none ∧ after (execUnknownRequestKind (asks base .list [])) id = some (asks base .list []) := by
  decide +kernel

/-! Hypotheses met: the advance and the run -/

/-- The head of `running`'s calendar, in the widest range and with an UNTIL limit that it meets. -/
theorem test_meets_advance :
    (running linked).advanceCondition = true ∧ (running linked).calendar = [⟨12, 0, .rise⟩] ∧ (12 : Nat) < 2 ^ 48 ∧
    (running linked).anyMember = true ∧
    after (execAdvance (running linked)) (fun t => (t.time, t.seq, t.calendar, (t.board 7).outstanding)) =
      some (12, 1#32, [⟨17, 0, .fall⟩], 1) := by decide +kernel

/-- Two domains at the head time, both with board 7 subscribed, the first with a REVISE and the second retiring at its
FALL: one part with their entries in domain order, then their notices in that order; a LINKED board that is no member gets
the notices alone (R62, R63, R77, R82). -/
theorem test_meets_head_group :
    let r : Domain := { living primary (.active (.revisePrimary 20 8)) with subscribers := Bits.add (Bits.add 0 7) 8 }
    let q : Domain := { living primary (.active .retire) with
      label := 301, level := .high, subscribers := Bits.add (Bits.add 0 7) 8 }
    let s : State := { (((running linked).setBoard 8 { linked with member := false }).setDomain 0 (some r)).setDomain 1 (some q)
      with calendar := [⟨12, 0, .rise⟩, ⟨12, 1, .fall⟩, ⟨13, 2, .rise⟩] }
    let notices : List Frame := [.notice (.revised 0 1 20 8 12 0), .notice (.retired 1)]
    s.advanceCondition = true ∧
    after (execAdvance s) (fun t => ((t.board 7).txQueue, (t.board 8).txQueue, t.calendar)) =
      some (.setPart ⟨.edge, 1, 12, 0, true, [(0, .high), (1, .low)]⟩ :: notices, notices,
        [⟨13, 2, .rise⟩, ⟨20, 0, .fall⟩]) ∧
    (s.calendar.Pairwise fun y z => y.before z = true) := by decide +kernel

/-- An advance in a cabinet without members: the run drains with its cause, and STOPPED is raised. -/
theorem test_meets_advance_without_members :
    let s : State := { running { linked with member := false } with budget := .sets 1 }
    s.advanceCondition = true ∧
    after (execAdvance s) (fun t => (t.runState, t.events.stopped, (t.board 7).txQueue)) = some (.stopped, true, []) := by
  decide +kernel

/-- One cause each: a breakpoint, a spent budget, no edges left, and none (R83 to R86). -/
theorem test_meets_advance_stops :
    let at_ (r : Domain) (b : Budget) (e : EdgeKind) :=
      after (execAdvance { (running linked).setDomain 0 (some r) with budget := b, calendar := [⟨12, 0, e⟩] }) fun t =>
        (t.runState, t.stopRecord.cause)
    at_ { living primary (.active .nothing) with stop := some ⟨1, .stopCabinet⟩ } .unlimited .rise =
      some (.draining, .breakpoint) ∧
    at_ (living primary (.active .nothing)) (.sets 1) .rise = some (.draining, .budget) ∧
    at_ (living { primary with level := .high } (.active (.pause .requested))) (.sets 2) .fall = some (.draining, .noEdges) ∧
    at_ (living primary (.active .nothing)) (.sets 2) .rise = some (.running, .reset) ∧
    at_ (living primary (.active .nothing)) (.untilTime 12) .rise = some (.running, .reset) := by decide +kernel

/-- A head time of 2^48, and an UNTIL limit of 11 before a head time of 12; with and without outstanding sets. -/
theorem test_meets_limit_checks :
    ({ running owing with calendar := [⟨2 ^ 48, 0, .rise⟩] } : State).advanceCondition = true ∧
    after (execAdvance { running owing with calendar := [⟨2 ^ 48, 0, .rise⟩] }) (fun t => (t.runState, t.stopRecord.cause)) =
      some (.draining, .timeLimit) ∧
    after (execAdvance { running linked with budget := .untilTime 11 }) (fun t => (t.runState, t.stopRecord.cause)) =
      some (.stopped, .budget) := by decide +kernel

/-- The condition fails at the window, with a held cause and for an unlinked member. -/
theorem test_meets_no_advance :
    (running { linked with outstanding := 2 }).advanceCondition = false ∧
    (running { linked with held := 1 }).advanceCondition = false ∧ (running faulted).advanceCondition = false ∧
    (running owing).advanceCondition = true := by decide +kernel

/-- Work in progress over two records. -/
def work (x y : Option Domain) : Advance := ⟨table x y, [], [], []⟩

theorem test_meets_edges :
    (work (some (living primary (.active .nothing))) none).state.domain 0 = some (living primary (.active .nothing)) ∧
    (work (some parent) (some (living companion (.active .nothing)))).state.companionActive
      (living companion (.active .nothing)) = false ∧
    ((work (some parent) (some (living companion (.active .nothing)))).edge 7 ⟨7, 1, .rise⟩).state.calendar =
      [⟨10, 1, .fall⟩] := by decide +kernel

/-- The pair retuned at one RISE: the companion's gap and its parent's values (R11, R12, R71). -/
theorem test_meets_revisions :
    let w := work (some (living parent (.active (.revisePrimary 20 8))))
      (some (living companion (.active (.reviseCompanion 3))))
    let v := work (some (living parent (.active (.revisePrimary 20 8)))) (some (living companion (.active .nothing)))
    w.state.domain 0 = some (living parent (.active (.revisePrimary 20 8))) ∧
    (w.edge 24 ⟨24, 0, .rise⟩).state.calendar = [⟨32, 0, .fall⟩, ⟨35, 1, .rise⟩] ∧
    (v.edge 24 ⟨24, 0, .rise⟩).state.calendar = [⟨32, 0, .fall⟩, ⟨34, 1, .rise⟩] := by decide +kernel

/-- The revision step in each form: neither record, the parent alone, the companion alone, both, and a companion that is
not ACTIVE; a companion's own RISE (R11, R12). -/
theorem test_meets_revision_forms :
    let forms (x : Life) (y : Life) (d : DomainNo) :=
      let w := ({ work (some (living parent x)) (some (living companion y)) with
        state := { table (some (living parent x)) (some (living companion y)) with calendar := [⟨31, 1, .rise⟩] } }
        : Advance).revision d 24
      (w.state.calendar, w.notices)
    let own := (Notice.revised 0 1 20 8 4 0, (0 : BoardSet))
    forms (.active .nothing) (.active .nothing) 0 = ([⟨31, 1, .rise⟩], []) ∧
    forms (.active (.revisePrimary 20 8)) (.active .nothing) 0 = ([⟨34, 1, .rise⟩], [own]) ∧
    forms (.active .nothing) (.active (.reviseCompanion 3)) 0 =
      ([⟨32, 1, .rise⟩], [(.revised 1 1 12 1 8 3, 0)]) ∧
    forms (.active (.revisePrimary 20 8)) (.active (.reviseCompanion 3)) 0 =
      ([⟨35, 1, .rise⟩], [own, (.revised 1 1 20 6 15 3, 0)]) ∧
    forms (.active (.revisePrimary 20 8)) .defined 0 = ([⟨31, 1, .rise⟩], [own]) ∧
    forms (.active .nothing) (.active (.reviseCompanion 3)) 1 = ([⟨31, 1, .rise⟩], []) := by decide +kernel

def parkHigh (l : Life) : Domain := { primary with source := .primary ⟨12, 5, 0, .high, none⟩, life := l }

theorem test_meets_pending_stops :
    let fell (r : Domain) := ((work (some r) none).edge 17 ⟨17, 0, .fall⟩).notices
    let rose (r : Domain) := ((work (some r) none).edge 12 ⟨12, 0, .rise⟩).notices
    fell (living primary (.active (.pause .requested))) = [(.paused 0 .requested, 0)] ∧
    rose (parkHigh (.active (.pause .count))) = [(.paused 0 .count, 0)] ∧
    fell (living primary (.active .retire)) = [(.retired 0, 0)] ∧ rose (parkHigh (.active .retire)) = [(.retired 0, 0)] := by
  decide +kernel

/-- The stop count reached at its first RISE and at the last count there is (R41). -/
theorem test_meets_stop_counts :
    let life (r : Domain) (a : StopAction) (n : Nat) :=
      (((work (some { r with life := .active .nothing, count := n, stop := some ⟨n + 1, a⟩ }) none).edge 12
        ⟨12, 0, .rise⟩).state.domain 0).map Domain.life
    life primary .notify 0 = some (.active .nothing) ∧ life primary .stopCabinet (2 ^ 32 - 2) = some (.active .nothing) ∧
    life primary .pauseDomain 0 = some (.active (.pause .count)) ∧
    life (parkHigh .defined) .pauseDomain (2 ^ 32 - 2) = some (.paused .count) := by decide +kernel

/-- PAUSE_DOMAIN with the slot taken, under an ACTIVE companion and on a companion's own record; a count that is saturated
and one that is not reached (R40, R41, R61). -/
theorem test_meets_count_forms :
    let stop (r : Domain) (n : Nat) : Domain := { r with stop := some ⟨n, .pauseDomain⟩ }
    let counts (x y : Domain) (d : DomainNo) :=
      let w := (work (some x) (some y)).count d
      ((w.state.domain d).map fun r => (r.count, r.life), Bits.has w.state.events.count d)
    counts (stop (living primary (.active (.revisePrimary 20 8))) 1) companion 0 =
      (some (1, .active (.revisePrimary 20 8)), true) ∧
    counts (stop (living parent (.active .nothing)) 1) (living companion (.active .nothing)) 0 =
      (some (1, .active .nothing), true) ∧
    counts parent (stop (living companion (.active .nothing)) 1) 1 = (some (1, .active (.pause .count)), true) ∧
    counts (stop (living primary (.active .nothing)) 2) companion 0 = (some (1, .active .nothing), false) ∧
    counts { stop (living primary (.active .nothing)) (2 ^ 32 - 1) with count := 2 ^ 32 - 1 } companion 0 =
      (some (2 ^ 32 - 1, .active .nothing), false) := by decide +kernel

/-- A companion's pause and its retirement, which clears its parent's companion field (R28, R53, R57). -/
theorem test_meets_companion_completions :
    let fell (l : Life) := (work (some parent) (some (living { companion with level := .high } l))).edge 10 ⟨10, 1, .fall⟩
    (fell (.active (.pause .requested))).notices = [(.paused 1 .requested, 0)] ∧
    (fell (.active (.pause .requested))).state.domain 0 = some parent ∧
    (fell (.active .retire)).notices = [(.retired 1, 0)] ∧ (fell (.active .retire)).state.domain 1 = none ∧
    (fell (.active .retire)).state.domain 0 = some primary := by decide +kernel

/-- RUN of each form with a member and an edge, at the ends of each range, and with the calendar empty. -/
theorem test_meets_run :
    let s : State := { running linked with runState := .stopped }
    let run (s : State) (p : List Byte) := after (execRun p s) fun t => (t.runState, t.budget, t.stopRecord.cause)
    s.frameStatus = .ready ∧ s.calendar ≠ [] ∧ (∃ b, (s.board b).member = true) ∧
    run s [0#8, 0#8, 0#8, 0#8, 0#8, 0#8, 0#8] = some (.running, .unlimited, .nothing) ∧
    run s [1#8, 0#8, 0#8, 0#8, 0#8, 0#8, 1#8] = some (.running, .sets 1, .nothing) ∧
    run s [1#8, 0#8, 0#8, 0xFF#8, 0xFF#8, 0xFF#8, 0xFF#8] = some (.running, .sets (2 ^ 32 - 1), .nothing) ∧
    run s [2#8, 0#8, 0#8, 0#8, 0#8, 0#8, 1#8] = some (.running, .untilTime 1, .nothing) ∧
    after (execStep [] s) State.budget = some (.sets 1) ∧
    run (boardIs linked) [0#8, 0#8, 0#8, 0#8, 0#8, 0#8, 0#8] = some (.stopped, .unlimited, .noEdges) := by decide +kernel

theorem test_meets_members_clear : membersClear (boardIs linked) ∧ ¬ membersClear (boardIs owing) := by
  unfold membersClear
  decide +kernel

/-- What a service command answers. -/
def replied (o : Result) : Option Status :=
  match o with
  | .next t =>
    match t.slot with
    | .done _ status _ => some status
    | .empty => none
    | .waiting _ _ => none
  | .fault _ => none
  | .refused _ => none

theorem test_meets_empty_calendar :
    (boardIs linked).calendar = [] ∧ (boardIs linked).time = 0 ∧ (boardIs linked).frameStatus = .ready ∧
    (boardIs linked).runState = .stopped ∧ ((boardIs linked).board 7).member = true ∧
    (boardIs owing).calendar = [] ∧ (boardIs owing).frameStatus = .ready ∧ (boardIs owing).runState = .stopped := by
  decide

/-- RUN and STEP over an empty calendar: NO_EDGES with the budget of each form at the ends of its range, and STOPPED, or
DRAINING while a member owes an ACK (R92, R94, R98). -/
theorem test_meets_run_without_edges :
    let left (o : Result) := after o fun t => (t.runState, t.budget, t.stopRecord.cause)
    let run (e : Board) (p : List Byte) := left (execRun p (boardIs e))
    run linked [1#8, 0#8, 0#8, 0#8, 0#8, 0#8, 1#8] = some (.stopped, .sets 1, .noEdges) ∧
    run linked [1#8, 0#8, 0#8, 0xFF#8, 0xFF#8, 0xFF#8, 0xFF#8] = some (.stopped, .sets (2 ^ 32 - 1), .noEdges) ∧
    run linked [2#8, 0#8, 0#8, 0#8, 0#8, 0#8, 1#8] = some (.stopped, .untilTime 1, .noEdges) ∧
    run owing [2#8, 0xFF#8, 0xFF#8, 0xFF#8, 0xFF#8, 0xFF#8, 0xFF#8] =
      some (.draining, .untilTime (2 ^ 48 - 1), .noEdges) ∧
    left (execStep [] (boardIs owing)) = some (.draining, .sets 1, .noEdges) ∧
    replied (execRun [1#8, 0#8, 0#8, 0#8, 0#8, 0#8, 1#8] (boardIs linked)) = some .ok := by decide +kernel

theorem test_meets_run_refusals :
    replied (execRun [3#8, 0#8, 0#8, 0#8, 0#8, 0#8, 0#8] base) = some .badParam ∧
    replied (execRun [0#8, 0#8, 0#8, 0#8, 0#8, 0#8, 1#8] base) = some .badParam ∧
    replied (execRun [1#8, 0#8, 0#8, 0#8, 0#8, 0#8, 0#8] base) = some .badParam ∧
    replied (execRun [1#8, 0#8, 1#8, 0#8, 0#8, 0#8, 0#8] base) = some .badParam ∧
    replied (execStep [] (running linked)) = some .wrongState ∧ replied (execRewind [] base) = some .noMembers ∧
    replied (execRun [2#8, 0#8, 0#8, 0#8, 0#8, 0#8, 0#8] (boardIs linked)) = some .badParam := by decide +kernel

theorem test_meets_stop_and_clear :
    replied (execStop [] (running owing)) = some .ok ∧ after (execStop [] (running owing)) State.runState = some .draining ∧
    after (execStop [] (running linked)) State.runState = some .stopped ∧ replied (execStop [] base) = some .already ∧
    after (execClear [] { boardIs linked with runState := .halted, furtherFaults := 255 })
      (fun t => (t.runState, t.furtherFaults)) = some (.stopped, 0) ∧
    replied (execClear [] { boardIs owing with runState := .halted }) = some .notReady ∧
    replied (execClear [] { base with runState := .halted, haltAsserted := true }) = some .notReady ∧
    replied (execClear [] base) = some .wrongState := by decide +kernel

/-- The run record's 34 bytes after reset, and the two forms of a snapshot (R187). -/
theorem test_meets_reports :
    base.frameStatus = .ready ∧ base.runRecord = 0#8 :: List.replicate 17 0#8 ++ (0x01#8 :: List.replicate 15 0#8) ∧
    (base.snapshot .service 0 primary).length = 53 ∧ (base.snapshot (.board 63) 0 primary).length = 46 := by decide +kernel

/-- The bytes between: a stop cause with all three present, the snapshot of an ACTIVE companion with a pending gap, and the
event sets with every flag (R187). -/
theorem test_meets_report_bytes :
    ((({ base with stopRecord := ⟨.trigger, some 63, some 47, some 0xAA#8, 1, 2⟩ } : State).runRecord.drop 18).take 5 =
      [0x07#8, 0x07#8, 63#8, 47#8, 0xAA#8]) ∧
    ((({ table (some parent) none with calendar := [⟨7, 1, .rise⟩] } : State).snapshot .service 1
      (living companion (.active (.reviseCompanion 3)))).drop 5).take 40 =
      [0x01#8, 0x00#8, 0#8, 12#8, 0#8, 3#8, 0#8, 7#8, 0x00#8, 2#8, 0xFF#8, 0x00#8, 0#8, 0#8, 0#8, 0#8, 0#8, 0#8,
        0#8, 0#8, 0#8, 0#8, 0#8, 0x01#8, 0#8, 0#8, 0#8, 0#8, 0#8, 0#8, 0#8, 7#8, 0x02#8, 0#8, 0#8, 0#8, 0#8, 3#8,
        0#8, 0#8] ∧
    ({ Events.none with resetDone := true, stopped := true, halted := true, haltLine := true } : Events).bytes =
      0x0F#8 :: List.replicate 30 0#8 ∧
    (base.snapshot .service 0 { primary with stop := some ⟨2 ^ 32 - 1, .notify⟩, life := .paused .count }).drop 23 =
      [3#8, 0xFF#8, 0xFF#8, 0xFF#8, 0xFF#8] ++ List.replicate 15 0#8 ++ [0x02#8, 0#8] ++ List.replicate 8 0#8 := by
  decide +kernel

/-- One frame of each kind that the CT64 sends (R182). -/
theorem test_meets_sent_frames :
    (Frame.probe 64).bytes.take 3 = [0x81#8, 1#8, 64#8] ∧
    (Frame.linkReady 63 20040 10).bytes.take 9 = [0x82#8, 7#8, 63#8, 0#8, 0#8, 0x4E#8, 0x48#8, 0#8, 10#8] ∧
    (Frame.setPart ⟨.level, 1, 12, 0, true, [(47, .high)]⟩).bytes.take 14 =
      [0x83#8, 12#8, 1#8, 0#8, 1#8, 0#8, 0#8, 0#8, 0#8, 0#8, 12#8, 128#8, 1#8, 175#8] ∧
    (Frame.notice (.detached 47)).bytes.take 4 = [0x84#8, 2#8, 7#8, 47#8] ∧
    (Frame.reply 1 127#7 .slotBusy []).bytes.take 4 = [0x85#8, 2#8, 0xFF#8, 25#8] ∧
    (Frame.holdAnswer 3#8 .taken 51).bytes.take 8 = [0x86#8, 6#8, 3#8, 15#8, 0#8, 0#8, 0#8, 51#8] ∧
    (Frame.stopAnswer 3#8 .stopping 51).bytes.take 4 = [0x87#8, 6#8, 3#8, 21#8] := by decide +kernel

/-- REWIND resolves a pause, a retirement and a revision, and issues one level set (R106 to R110). -/
theorem test_meets_level_sets :
    let s : State := ((boardIs linked).setDomain 0 (some (living primary (.active (.revisePrimary 20 8))))).setDomain 1
      (some (living { primary with label := 2 } (.active .retire)))
    let t : State := s.setDomain 2 (some (living { primary with label := 3 } (.active (.pause .requested))))
    t.frameStatus = .ready ∧ t.runState = .stopped ∧
    after (execRewind [] t) (fun u => (u.runState, u.calendar, u.domain 1, (u.domain 2).map Domain.life)) =
      some (.draining, [⟨20, 0, .rise⟩], none, some (.paused .requested)) ∧
    after (execResync [] t) (fun u => (u.runState, u.seq, (u.board 7).outstanding)) = some (.draining, 1#32, 1) := by
  decide +kernel

/-- REWIND of two pairs, one under each park level: the pending gap applies, a retiring companion clears its parent's field,
the companions' first edges follow their parents' (R14), and the copy goes out before the notices, in domain order (R108). -/
theorem test_meets_rewind_of_pairs :
    let to7 (r : Domain) (l : Life) : Domain := { living r l with subscribers := Bits.add 0 7, level := .high, count := 9 }
    let high (c : DomainNo) : Domain := { primary with label := 302, source := .primary ⟨12, 5, 0, .high, some c⟩ }
    let s : State := ((((boardIs linked).setDomain 0 (some (to7 parent (.active (.revisePrimary 20 8))))).setDomain 1
      (some (to7 companion (.active (.reviseCompanion 3))))).setDomain 2 (some (to7 (high 3) (.active .nothing)))).setDomain 3
      (some (to7 { companion with label := 303, source := .companion ⟨2, 2⟩ } (.active .nothing)))
    after (execRewind [] s) (fun t => (t.time, t.seq, t.calendar, (t.board 7).outstanding, (t.board 7).txQueue)) =
      some (0, 1, [⟨5, 2, .fall⟩, ⟨7, 3, .rise⟩, ⟨11, 1, .rise⟩, ⟨20, 0, .rise⟩], 1,
        [.setPart ⟨.level, 1, 0, 0, true, [(0, .low), (1, .low), (2, .high), (3, .low)]⟩,
          .notice (.revised 0 1 20 8 0 0), .notice (.revised 1 1 20 6 11 3)]) ∧
    after (execRewind [] (s.setDomain 1 (some (to7 companion (.active .retire))))) (fun t => (t.domain 0, t.domain 1)) =
      some (some { to7 primary (.active .nothing) with
        source := .primary ⟨20, 8, 0, .low, none⟩, level := .low, count := 0, generation := 1 }, none) := by decide +kernel

/-! Hypotheses met: boards, encodings, invariants -/

theorem test_meets_board_commands :
    replied (execAdmitBoard [64#8] base) = some .badParam ∧ replied (execExpel [63#8] (running linked)) = some .wrongState ∧
    replied (execAdmitBoard [7#8] (boardIs linked)) = some .already ∧ replied (execAdmitBoard [63#8] base) = some .notReady ∧
    after (execAdmitBoard [7#8] (boardIs { linked with member := false })) (fun t => (t.board 7).member) = some true ∧
    replied (execExpel [0#8] base) = some .already ∧
    after (execExpel [7#8] (boardIs owing)) (fun t => ((t.board 7).member, (t.board 7).outstanding)) = some (false, 0) ∧
    replied (execRetrain [7#8] (boardIs linked)) = some .wrongState ∧
    after (execRetrain [7#8] (boardIs faulted)) (fun t => (t.board 7).link) = some (.training ⟨8, 1, [], 0⟩) ∧
    after (execRetrain [7#8] (boardIs { faulted with signal := false })) (fun t => (t.board 7).link) = some .down := by
  decide +kernel

theorem test_meets_board_settings :
    replied (execSetBoard [63#8, 8#8, 0xFF#8, 0xFF#8, 0#8, 1#8] base) = some .ok ∧
    replied (execSetBoard [63#8, 9#8, 0#8, 0#8, 0#8, 1#8] base) = some .badParam ∧
    replied (execSetBoard [0#8, 1#8, 0#8, 0#8, 0#8, 0#8] base) = some .badParam ∧
    replied (execSetBoard [64#8, 1#8, 0#8, 0#8, 0#8, 1#8] base) = some .badParam ∧
    replied (execSetBoard [7#8, 1#8, 0#8, 0#8, 0#8, 1#8] (running linked)) = some .wrongState ∧
    replied (execSetBoard [7#8, 1#8, 0#8, 0#8, 0#8, 1#8] (boardIs owing)) = some .wrongState ∧
    replied (execReadBoard [63#8] base) = some .ok ∧ replied (execReadBoard [64#8] base) = some .badParam := by
  decide +kernel

/-- The 28 bytes of a FAULT board that holds a cause (R187). -/
theorem test_meets_board_record :
    ({ faulted with held := 3, timedOut := 1, outstanding := 2, holdsTaken := 5, longestAckWait := 65535 } : Board).record =
      [3#8, 1#8, 2#8, 0#8, 10#8, 4#8, 2#8, 0#8, 50#8, 0#8, 200#8, 0#8, 0#8, 0x4E#8, 0x48#8, 2#8, 3#8, 1#8,
        0#8, 0#8, 0#8, 0#8, 0#8, 0#8, 0#8, 5#8, 0xFF#8, 0xFF#8] := by decide +kernel

/-- The run budget at the ends of its ranges (R92). -/
theorem test_meets_budgets : BudgetInRange .unlimited ∧ BudgetInRange (.sets 0) ∧ BudgetInRange (.sets (2 ^ 32 - 1)) ∧
    BudgetInRange (.untilTime 1) ∧ BudgetInRange (.untilTime (2 ^ 48 - 1)) := by
  unfold BudgetInRange
  decide

theorem test_meets_encodings :
    (Instr.request 63 1 127#7 []).wf = true ∧ (Instr.request 63 1 127#7 []).link? = some 63 ∧
    (encodeLinkFrame (.request 63 1 127#7 [])).isSome = true ∧
    decodeLinkFrame 63 (linkFrame 0x05#8 [0xFF#8]) 0 = .request 63 1 127#7 [] ∧
    encodeServiceFrame (.readReply 2) = some [0x60#8, 0#8, 0#8] ∧
    decodeServiceFrame [0x60#8, 0#8, 0#8] = .readReply 2 ∧
    decodeServiceWires ((Bytes.bits [0x60#8, 0#8, 0#8] ++ [true]).flatMap fun x => [(false, x), (true, x)]) =
      .readReply 2 ∧
    (Instr.request 63 1 127#7 (List.replicate 18 0#8)).wf = false ∧
    decodeLinkFrame 63 (linkFrame 0x05#8 (0xFF#8 :: List.replicate 18 0#8)) 0 = .badFrame 63 ∧
    crc16 (0x07#8 :: BitVec.ofNat 8 0 :: [] ++ crcField [0x07#8, 0x00#8]) = 0x0000#16 := by decide +kernel

/-- The idle machine after reset takes a step, and keeps what the invariants say of it in the words of its numbers. -/
theorem test_meets_steps :
    (after (step State.reset) fun t => (t.clock, t.runState, t.calendar, t.mask)) = some (1, .stopped, [], 0) ∧
    State.reset.runState ≠ .running ∧ State.reset.calendar = [] ∧ State.reset.phase ≠ .ready := by decide +kernel

/-! The queue and the host's functions -/

theorem test_withFetchWord_spells_nothing : State.reset.withFetchWord 8 1 = State.reset := rfl

theorem test_front_command_first :
    step { State.reset with pending := [.resetNNegated, .haltNAsserted] } =
      .next { State.reset with phase := .initialising 5000, pending := [.haltNAsserted] } := rfl

/-- The pair of spec/02 2.11 ACTIVE at time 0: the companion rises at 7, its parent at 12. -/
def pair : State :=
  { table (some (living parent (.active .nothing))) (some (living companion (.active .nothing))) with
    calendar := [⟨7, 1, .rise⟩, ⟨12, 0, .rise⟩] }

theorem pair_domain {d : DomainNo} {r : Domain} (h : pair.domain d = some r) :
    d = 1 ∧ r = living companion (.active .nothing) ∨ d = 0 ∧ r = living parent (.active .nothing) := by
  have k : pair.domain d = _ := table_domain _ _ d
  rw [k] at h
  split at h
  · exact .inl ⟨by assumption, by injection h with h; exact h.symm⟩
  · split at h
    · exact .inr ⟨by assumption, by injection h with h; exact h.symm⟩
    · exact nomatch h

theorem pair_board (b : BoardNo) : pair.board b = Board.powerOn := base_board b

theorem test_meets_invariants_of_boards :
    InRange pair ∧ RunSettled pair ∧ (∀ b, RepliesQueued (pair.board b)) ∧ Quiet pair ∧ ∃ t, step pair = .next t := by
  have quiet : ∀ t, Board.powerOn.link ≠ .training t := fun t h => nomatch h
  refine ⟨⟨by decide, by decide, by decide, by decide, by decide, by decide, by decide, trivial, by decide,
      fun b t h => absurd h (by rw [pair_board]; exact quiet t), fun b => ?_⟩,
    ⟨fun b => ?_, fun b => ?_, fun _ b => ?_, fun h => ?_, fun h => ?_, fun _ => by decide⟩, fun b => ?_,
    fun h => ?_, ⟨_, rfl⟩⟩
  · rw [pair_board]
    exact ⟨by decide, by decide, by decide, by decide, by decide, fun t h => absurd h (quiet t)⟩
  · rw [pair_board]
    decide
  · rw [pair_board]
    exact ⟨by decide, by decide, by decide, fun h => absurd h (by decide), fun h => absurd h (by decide), by decide,
      fun _ => by decide, by decide, by decide, by decide⟩
  · rw [pair_board]
    decide
  · exact absurd h (by decide)
  · exact absurd h (by decide)
  · rw [pair_board]
    exact ⟨by decide, by decide⟩
  · exact absurd (rfl : pair.phase = .ready) h

theorem test_meets_invariants_of_records : RecordsOk pair := by
  refine ⟨fun d r h => ?_, fun d e r q h k l => ?_, fun d r c h k => ?_, fun d r p c h k l => ?_,
    fun d r c q p h k l m => ?_, fun d r c q period high h k l m => ?_, fun d r c q h k l m => ?_, fun d r h k => ?_⟩
  · rcases pair_domain h with ⟨rfl, rfl⟩ | ⟨rfl, rfl⟩
    · exact ⟨by decide, (by decide : (1 : Nat) ≤ 2 ∧ (2 : Nat) ≤ 255), by decide, (fun x h => nomatch h),
        fun p h => by injection h with h; subst h; trivial⟩
    · exact ⟨by decide, (by unfold waveInRange; decide : waveInRange 12 5 0), by decide, (fun x h => nomatch h),
        fun p h => by injection h with h; subst h; trivial⟩
  · rcases pair_domain h with ⟨rfl, rfl⟩ | ⟨rfl, rfl⟩ <;> rcases pair_domain k with ⟨rfl, rfl⟩ | ⟨rfl, rfl⟩ <;>
      first | rfl | exact absurd l (by decide)
  · rcases pair_domain h with ⟨rfl, rfl⟩ | ⟨rfl, rfl⟩
    · injection k with k
      subst k
      exact ⟨living parent (.active .nothing), _, by decide +kernel, rfl, rfl⟩
    · exact nomatch k
  · rcases pair_domain h with ⟨rfl, rfl⟩ | ⟨rfl, rfl⟩
    · exact nomatch k
    · injection k with k
      subst k
      injection l with l
      subst l
      exact ⟨living companion (.active .nothing), 2, by decide +kernel, rfl⟩
  · rcases pair_domain h with ⟨rfl, rfl⟩ | ⟨rfl, rfl⟩
    · injection k with k
      subst k
      rcases pair_domain l with ⟨e, rfl⟩ | ⟨_, rfl⟩
      · exact absurd e (by decide)
      · injection m with m
        subst m
        exact ⟨by decide, fun g hg => nomatch hg⟩
    · exact nomatch k
  · rcases pair_domain l with ⟨_, rfl⟩ | ⟨_, rfl⟩ <;> exact nomatch m
  · rcases pair_domain h with ⟨rfl, rfl⟩ | ⟨rfl, rfl⟩
    · injection k with k
      subst k
      rcases pair_domain m with ⟨e, rfl⟩ | ⟨_, rfl⟩
      · exact absurd e (by decide)
      · exact ⟨rfl, rfl⟩
    · exact nomatch k
  · rcases pair_domain h with ⟨rfl, rfl⟩ | ⟨rfl, rfl⟩ <;> exact fun e => nomatch e

theorem pair_entry {x : Entry} (h : x ∈ pair.calendar) : x = ⟨7, 1, .rise⟩ ∨ x = ⟨12, 0, .rise⟩ := by
  simpa [pair] using h

theorem pair_record (x : Entry) {r : Domain} (h : pair.domain x.domain = some r) :
    x.domain = 1 ∧ r = living companion (.active .nothing) ∨ x.domain = 0 ∧ r = living parent (.active .nothing) :=
  pair_domain h

theorem test_meets_invariants_of_the_calendar : CalendarAhead pair ∧ CalendarExact pair := by
  refine ⟨⟨by decide, fun x hx => ?_, by decide⟩, ⟨by decide, fun x hx y hy h => ?_, fun d r h _ => ?_, fun x hx => ?_,
    fun x hx => ?_, by decide, fun x hx => ?_, fun x hx r p h k => ?_, fun x hx r p h k => ?_, fun d r h k => ?_,
    fun x hx y hy r q c p h k l m n => ?_⟩⟩
  · rcases pair_entry hx with rfl | rfl <;> decide
  · rcases pair_entry hx with rfl | rfl <;> rcases pair_entry hy with rfl | rfl <;>
      first | rfl | exact absurd h (by decide)
  · rcases pair_domain h with ⟨rfl, rfl⟩ | ⟨rfl, rfl⟩
    · exact ⟨⟨7, 1, .rise⟩, by decide, rfl⟩
    · exact ⟨⟨12, 0, .rise⟩, by decide, rfl⟩
  · rcases pair_entry hx with rfl | rfl
    · exact ⟨living companion (.active .nothing), by decide +kernel, by decide, by decide⟩
    · exact ⟨living parent (.active .nothing), by decide +kernel, by decide, by decide⟩
  · rcases pair_entry hx with rfl | rfl <;> decide
  · rcases pair_entry hx with rfl | rfl <;> decide
  · rcases pair_entry hx with rfl | rfl <;> rcases pair_domain h with ⟨e, rfl⟩ | ⟨e, rfl⟩ <;>
      first | exact absurd e (by decide) | (injection k with k; subst k; decide) | exact nomatch k
  · rcases pair_entry hx with rfl | rfl <;> rcases pair_domain h with ⟨e, rfl⟩ | ⟨e, rfl⟩ <;>
      first | exact absurd e (by decide) | (injection k with k; subst k; decide) | exact nomatch k
  · rcases pair_domain h with ⟨_, rfl⟩ | ⟨_, rfl⟩ <;> exact absurd k (by decide)
  · rcases pair_domain h with ⟨e, rfl⟩ | ⟨e, rfl⟩
    · injection k with k
      subst k
      rcases pair_domain m with ⟨e', rfl⟩ | ⟨_, rfl⟩
      · exact absurd e' (by decide)
      · injection n with n
        subst n
        rcases pair_entry hx with rfl | rfl <;> rcases pair_entry hy with rfl | rfl <;>
          first | exact absurd l (by decide) | exact absurd e (by decide) | exact .inr (by decide)
    · exact nomatch k

end Sys2Proof.Tests
end

section
/-! SUPPORT. SET STOP (R42, R185): what its reader accepts, what the Domain Table answers at each of its checks, and
the statement O34. -/

namespace Sys2Proof.Machine

open Sys2Proof.Safety

/-! The reader -/

theorem Bytes.toNat_four (c1 c2 c3 c4 : Byte) :
    Bytes.toNat [c1, c2, c3, c4] = ((c1.toNat * 256 + c2.toNat) * 256 + c3.toNat) * 256 + c4.toNat := by
  simp [Bytes.toNat]

/-- An absent stop setting is spelled by 0 in both fields (R185). -/
theorem stopOf_absent : stopOf 0x00#8 0 = some none := rfl

/-- A stop action with a count above 0 is read as it is spelled (R185). -/
theorem stopOf_byte (a : StopAction) {count : Nat} (h : 0 < count) : stopOf a.byte count = some (some ⟨count, a⟩) := by
  have hc : count ≠ 0 := by omega
  cases a <;> simp [stopOf, StopAction.byte, hc]

/-- The bytes 01h to 03h are the codes of the stop actions (R185). -/
theorem StopAction.exists_byte {action : Byte} (h1 : 1 ≤ action.toNat) (h3 : action.toNat ≤ 3) :
    ∃ a : StopAction, action = a.byte := by
  have cases123 : action = 0x01#8 ∨ action = 0x02#8 ∨ action = 0x03#8 := by bv_omega
  rcases cases123 with rfl | rfl | rfl
  · exact ⟨.pauseDomain, rfl⟩
  · exact ⟨.stopCabinet, rfl⟩
  · exact ⟨.notify, rfl⟩

/-- What the reader accepts: nothing in both fields, or a known action with a count (R42, R185). -/
theorem stopOf_isSome_iff {action : Byte} {count : Nat} : (∃ stop, stopOf action count = some stop) ↔
    action = 0x00#8 ∧ count = 0 ∨ 1 ≤ action.toNat ∧ action.toNat ≤ 3 ∧ 0 < count := by
  constructor
  · rintro ⟨stop, h⟩
    unfold stopOf at h
    split_ifs at h with h0 hc hc h1 h2 h3
    · exact .inl ⟨h0, hc⟩
    · exact .inr ⟨h1 ▸ by decide, h1 ▸ by decide, by omega⟩
    · exact .inr ⟨h2 ▸ by decide, h2 ▸ by decide, by omega⟩
    · exact .inr ⟨h3 ▸ by decide, h3 ▸ by decide, by omega⟩
  · rintro (⟨rfl, rfl⟩ | ⟨h1, h3, hc⟩)
    · exact ⟨none, stopOf_absent⟩
    · obtain ⟨a, rfl⟩ := StopAction.exists_byte h1 h3
      exact ⟨_, stopOf_byte a hc⟩

theorem parseSetStop_of_length {params : List Byte} (h : params.length ≠ 6) : parseSetStop params = none := by
  unfold parseSetStop
  split
  · exact absurd rfl h
  · rfl

section Reader
variable {x action c1 c2 c3 c4 : Byte}

theorem parseSetStop_of_ge (h : 48 ≤ x.toNat) : parseSetStop [x, action, c1, c2, c3, c4] = none := by
  simp only [parseSetStop, domainOf_of_ge h]

theorem parseSetStop_of_stopOf_none (h : stopOf action (Bytes.toNat [c1, c2, c3, c4]) = none) :
    parseSetStop [x, action, c1, c2, c3, c4] = none := by
  cases hd : domainOf x <;> simp only [parseSetStop, hd, h]

theorem parseSetStop_of_stopOf {d : DomainNo} {stop : Option StopSetting} (hx : x.toNat = d.val)
    (h : stopOf action (Bytes.toNat [c1, c2, c3, c4]) = some stop) :
    parseSetStop [x, action, c1, c2, c3, c4] = some (d, stop) := by
  simp only [parseSetStop, domainOf_of_val hx, h]

end Reader

/-! The command, check by check -/

section Checks
variable {s : State} {g : Grant} {params : List Byte} {d : DomainNo} {stop : Option StopSetting} {r : Domain}

/-- A SET STOP whose values are known goes on to the record's own checks (R23). -/
theorem takeSetStop_of_parse (who : Owner) (p : parseSetStop params = some (d, stop)) :
    takeSetStop who params s =
      s.withOwned who d fun r => ⟨s.setDomain d (some { r with stop := stop }), .ok, [], []⟩ := by
  simp only [takeSetStop, p]

theorem exec_setStop_badParam (h : NextRequest s g .setStop params) (p : parseSetStop params = none) :
    exec .setStop s = .next (granted s g id .badParam [] []) := by
  refine State.grantOf_next h ?_
  simp only [takeSetStop, p, State.refuse, id_eq]

theorem exec_setStop_noSuch (h : NextRequest s g .setStop params) (p : parseSetStop params = some (d, stop))
    (hd : s.domain d = none) : exec .setStop s = .next (granted s g id .noSuch [] []) := by
  refine State.grantOf_next h ?_
  rw [takeSetStop_of_parse _ p, State.withOwned_free (by simpa using hd)]
  rfl

theorem exec_setStop_denied (h : NextRequest s g .setStop params) (p : parseSetStop params = some (d, stop))
    (hd : s.domain d = some r) (m : ¬ mayChange g r) : exec .setStop s = .next (granted s g id .denied [] []) := by
  refine State.grantOf_next h ?_
  rw [takeSetStop_of_parse _ p, State.withOwned_denied (by simpa using hd) m]
  rfl

/-- SET STOP taken: the stop setting is the one given, in whatever state the record is (R42). -/
theorem exec_setStop_taken (h : NextRequest s g .setStop params) (p : parseSetStop params = some (d, stop))
    (hd : s.domain d = some r) (m : mayChange g r) :
    exec .setStop s = .next (granted s g (fun a => a.setDomain d (some { r with stop := stop })) .ok [] []) := by
  refine State.grantOf_next h ?_
  rw [takeSetStop_of_parse _ p, State.withOwned_allowed (by simpa using hd) m]

end Checks

/-- Settles O34: each of R42's checks, on what the reader makes of the six bytes. -/
theorem setStopReplacesTheStopSetting : Obligations.SetStopReplacesTheStopSetting := by
  intro s g params h
  refine ⟨fun length => exec_setStop_badParam h (parseSetStop_of_length length), ?_⟩
  rintro x action c1 c2 c3 c4 rfl
  dsimp only
  rw [← Bytes.toNat_four]
  refine ⟨?_, fun d hx valid => ?_⟩
  · rintro (invalid | high)
    · have unread : stopOf action (Bytes.toNat [c1, c2, c3, c4]) = none :=
        Option.eq_none_iff_forall_ne_some.mpr fun stop e => invalid (stopOf_isSome_iff.mp ⟨stop, e⟩)
      exact exec_setStop_badParam h (parseSetStop_of_stopOf_none unread)
    · exact exec_setStop_badParam h (parseSetStop_of_ge high)
  · obtain ⟨stop, read⟩ := stopOf_isSome_iff.mpr valid
    have parsed := parseSetStop_of_stopOf hx read
    refine ⟨exec_setStop_noSuch h parsed, fun r hd => ⟨exec_setStop_denied h parsed hd, fun m => ?_⟩⟩
    have sets : ∀ given, stopOf action (Bytes.toNat [c1, c2, c3, c4]) = some given → exec .setStop s =
        .next (granted s g (fun a => a.setDomain d (some { r with stop := given })) .ok [] []) :=
      fun _ e => exec_setStop_taken h (parseSetStop_of_stopOf hx e) hd m
    have counted : action ≠ 0x00#8 → 0 < Bytes.toNat [c1, c2, c3, c4] := fun ne =>
      valid.elim (fun v => absurd v.1 ne) fun v => v.2.2
    refine ⟨?_, ?_, ?_, ?_⟩
    · rintro rfl
      have none_counted : Bytes.toNat [c1, c2, c3, c4] = 0 := valid.elim And.right fun v => absurd v.1 (by decide)
      exact sets none (none_counted ▸ stopOf_absent)
    · rintro rfl
      exact sets _ (stopOf_byte .pauseDomain (counted (by decide)))
    · rintro rfl
      exact sets _ (stopOf_byte .stopCabinet (counted (by decide)))
    · rintro rfl
      exact sets _ (stopOf_byte .notify (counted (by decide)))

end Sys2Proof.Machine
end

section
/-! SUPPORT. STOP and CLEAR (R96, R105): what each block answers in every run state, what CLEAR asks of a cabinet, and
the statements O44 and O45. -/

namespace Sys2Proof.Machine

open Sys2Proof.Safety

section Blocks
variable {s u : State} {payload : List Byte}

/-- A READY frame without payload whose block answers a status alone, from the state that the frame leaves. -/
theorem State.command_answers_status {code : Byte} {body : List Byte → State → Answer} {status : Status}
    (h : s.frameStatus = .ready) (hu : u.frameStatus = .ready)
    (answer : body [] (s.endFiller 0) = (u.endFiller 0).answer status) :
    Host.Outcome.next (s.command code 0 [] body) = (.next (answered u code status [] 0) : Result) :=
  congrArg Host.Outcome.next (State.command_answers h rfl hu answer)

/-! STOP (R96) -/

/-- The end of a frame touches no board entry. -/
theorem membersClear_endFiller {n : Nat} : membersClear (s.endFiller n) ↔ membersClear s := membersClear_of_boards rfl

/-- STOP in RUNNING leaves what the entry to DRAINING with its cause leaves (R96). -/
theorem answerStop_running (r : s.runState = .running) (drain : s.enterDraining .stopCommand none none none = u) :
    answerStop payload s = u.answer .ok := by
  rw [answerStop, if_pos r, drain]

theorem answerStop_not_running (r : s.runState ≠ .running) : answerStop payload s = s.answer .already := if_neg r

/-! CLEAR (R105) -/

/-- What CLEAR asks of a HALTED cabinet, read member by member (R105). -/
theorem State.mayClear_iff (s : State) : s.mayClear = true ↔ s.haltAsserted = false ∧
    ∀ b, (s.board b).member = true → (s.board b).link = .linked ∧ (s.board b).outstanding = 0 := by
  simp [State.mayClear, State.everyMember_iff, Board.isLinked_iff]

theorem answerClear_taken (r : s.runState = .halted) (m : s.mayClear = true) :
    answerClear payload s = ({ s with runState := .stopped, furtherFaults := 0 } : State).answer .ok := by
  rw [answerClear, if_pos r, if_pos m]

theorem answerClear_notReady (r : s.runState = .halted) (m : ¬ s.mayClear = true) :
    answerClear payload s = s.answer .notReady := by
  rw [answerClear, if_pos r, if_neg m]

theorem answerClear_not_halted (r : s.runState ≠ .halted) : answerClear payload s = s.answer .wrongState := if_neg r

end Blocks

/-- Settles O44: a RUNNING cabinet enters DRAINING, which waits or completes at once as its members stand. -/
theorem stopDrainsARunningCabinet : Obligations.StopDrainsARunningCabinet := by
  intro s h
  refine ⟨fun running waits => ?_, fun running clear => ?_, fun other => ?_⟩
  · exact State.command_answers_status h h
      (answerStop_running running (State.enterDraining_waits (mt membersClear_endFiller.mp waits)))
  · exact State.command_answers_status h h
      (answerStop_running running (State.enterDraining_completes (membersClear_endFiller.mpr clear)))
  · exact State.command_answers_status h h (answerStop_not_running other)

/-- Settles O45: the end of the frame changes neither HALT_N's level nor a board entry, so CLEAR's conditions are those
of the state before it. -/
theorem clearLeavesHalted : Obligations.ClearLeavesHalted := by
  intro s h
  have conditions := (s.endFiller 0).mayClear_iff
  refine ⟨fun halted clear => ?_, fun halted blocked => ?_, fun other => ?_⟩
  · exact State.command_answers_status h h (answerClear_taken halted (conditions.mpr clear))
  · exact State.command_answers_status h h (answerClear_notReady halted (mt conditions.mp blocked))
  · exact State.command_answers_status h h (answerClear_not_halted other)

end Sys2Proof.Machine
end

section
/-! SUPPORT. The Hold Unit (R149 to R160): which check of a HOLD, a RELEASE or a board's STOP frame gives the answer, what
a taken one leaves of the board entry or the run, and the statements O20, O21 and O22. -/

namespace Sys2Proof.Machine

open Sys2Proof.Safety

/-! Links that reach the Hold Unit (R114, R121) -/

theorem Board.reachesHoldUnit_iff {e : Board} : e.reachesHoldUnit = true ↔ e.link = .linked ∨ e.link = .fault := by
  cases h : e.link <;> simp [Board.reachesHoldUnit, h]

theorem Board.reachesHoldUnit_of_linked {e : Board} (h : e.link = .linked) : e.reachesHoldUnit = true :=
  Board.reachesHoldUnit_iff.mpr (.inl h)

theorem Board.reachesHoldUnit_of_fault {e : Board} (h : e.link = .fault) : e.reachesHoldUnit = true :=
  Board.reachesHoldUnit_iff.mpr (.inr h)

theorem Board.isLinked_of_fault {e : Board} (h : e.link = .fault) : e.isLinked = false := by
  simp [Board.isLinked, h]

/-- A frame queued behind a board entry just written is written with it. -/
theorem State.enqueue_setBoard (s : State) (b : BoardNo) (e : Board) (f : Frame) :
    (s.setBoard b e).enqueue b f = s.setBoard b (e.enqueue [f]) := by
  simp only [State.enqueue, State.modifyBoard, State.board_setBoard, if_pos, State.setBoard_setBoard]

/-! The checks in order -/

section Checks
variable {e : Board} {cause : Byte}

/-! HOLD (R150) -/

theorem Board.holdStatus_badParam (high : 3 < cause.toNat) : e.holdStatus cause = .badParam := by
  simp only [Board.holdStatus, causeOf_of_gt high]

theorem Board.holdStatus_faulted (known : cause.toNat ≤ 3) (link : e.link = .fault) :
    e.holdStatus cause = .faulted := by
  simp only [Board.holdStatus, causeOf_of_le known, if_pos (Board.isLinked_of_fault link)]

/-- The checks that a LINKED board is left with. -/
theorem Board.holdStatus_linked (known : cause.toNat ≤ 3) (link : e.link = .linked) :
    e.holdStatus cause =
      if e.member = false then .notMember else if Bits.has e.held cause.toNat then .already else .taken := by
  simp only [Board.holdStatus, causeOf_of_le known, (Board.isLinked_iff e).mpr link, Bool.true_eq_false, if_false]

/-! RELEASE (R152) -/

theorem Board.releaseStatus_badParam (high : 3 < cause.toNat) : e.releaseStatus cause = .badParam := by
  simp only [Board.releaseStatus, causeOf_of_gt high]

theorem Board.releaseStatus_fault (known : cause.toNat ≤ 3) (link : e.link = .fault) :
    e.releaseStatus cause = if Bits.has e.timedOut cause.toNat then .tooLate else .faulted := by
  simp only [Board.releaseStatus, causeOf_of_le known, if_pos (Board.isLinked_of_fault link)]

/-- The checks that a LINKED board is left with. -/
theorem Board.releaseStatus_linked (known : cause.toNat ≤ 3) (link : e.link = .linked) :
    e.releaseStatus cause =
      if e.member = false then .notMember else if Bits.has e.held cause.toNat then .released else .notHeld := by
  simp only [Board.releaseStatus, causeOf_of_le known, (Board.isLinked_iff e).mpr link, Bool.true_eq_false, if_false]

/-! STOP frames (R159) -/

theorem Board.stopStatus_faulted {running : Bool} (link : e.link = .fault) : e.stopStatus running = .faulted :=
  if_pos (Board.isLinked_of_fault link)

/-- The checks that a LINKED board is left with. -/
theorem Board.stopStatus_linked {running : Bool} (link : e.link = .linked) :
    e.stopStatus running =
      if e.member = false then .notMember else if running = false then .notRunning else .stopping := by
  simp only [Board.stopStatus, (Board.isLinked_iff e).mpr link, Bool.true_eq_false, if_false]

end Checks

/-! Entries after a taken HOLD or RELEASE -/

/-- The first cause to be held of a RUNNING cabinet arms the hold timer, when the limit is not 0 (R150, R154). -/
theorem Board.takeHold_eq (e : Board) (running : Bool) (clock : Nat) (cause : Byte) :
    e.takeHold running clock cause = { e with
      held := Bits.add e.held cause.toNat
      holdsTaken := e.holdsTaken + 1
      holdTimer :=
        if e.held = 0 ∧ running = true ∧ e.holdLimit ≠ 0 then some (clock + 100000 * e.holdLimit)
        else e.holdTimer } := by
  unfold Board.takeHold Board.armHoldTimer
  dsimp only
  by_cases first : e.held = 0 ∧ running = true
  · by_cases unlimited : e.holdLimit = 0
    · have notArmed : ¬ (e.held = 0 ∧ running = true ∧ e.holdLimit ≠ 0) := fun h => h.2.2 unlimited
      rw [if_pos first, if_pos unlimited, if_neg notArmed]
    · have armed : e.held = 0 ∧ running = true ∧ e.holdLimit ≠ 0 := ⟨first.1, first.2, unlimited⟩
      rw [if_pos first, if_neg unlimited, if_pos armed, Config.unitsPerMillisecond]
  · have notArmed : ¬ (e.held = 0 ∧ running = true ∧ e.holdLimit ≠ 0) := fun h => first ⟨h.1, h.2.1⟩
    rw [if_neg first, if_neg notArmed]

/-- The last held cause to be released disarms the hold timer (R152, R154). -/
theorem Board.takeRelease_eq (e : Board) (cause : Byte) :
    e.takeRelease cause = { e with
      held := Bits.remove e.held cause.toNat
      holdTimer := if Bits.remove e.held cause.toNat = 0 then none else e.holdTimer } := by
  unfold Board.takeRelease
  by_cases last : Bits.remove e.held cause.toNat = 0
  · simp only [if_pos last]
  · simp only [if_neg last]

/-! The commands by the status of their checks -/

section Commands
variable {s : State} {b : BoardNo} {x : Byte} {status : Status}

theorem exec_hold_unreached (unreached : ¬ (s.board b).reachesHoldUnit = true) : exec (.hold b x) s = .next s :=
  congrArg Host.Outcome.next (if_neg unreached)

/-- A refused HOLD is answered and changes nothing else. -/
theorem exec_hold_refused (reaches : (s.board b).reachesHoldUnit = true) (checked : (s.board b).holdStatus x = status)
    (refused : status ≠ .taken) : exec (.hold b x) s = .next (s.enqueue b (.holdAnswer x status s.seq)) := by
  simp only [exec, execHold, if_pos reaches, checked, if_neg refused]

theorem exec_hold_taken (reaches : (s.board b).reachesHoldUnit = true) (checked : (s.board b).holdStatus x = .taken) :
    exec (.hold b x) s = .next (s.setBoard b
      (((s.board b).takeHold (decide (s.runState = .running)) s.clock x).enqueue [.holdAnswer x .taken s.seq])) := by
  simp only [exec, execHold, if_pos reaches, checked, if_true, ← State.enqueue_setBoard, State.modifyBoard]

/-- A refused RELEASE is answered and changes nothing else. -/
theorem exec_release_refused (reaches : (s.board b).reachesHoldUnit = true)
    (checked : (s.board b).releaseStatus x = status) (refused : status ≠ .released) :
    exec (.release b x) s = .next (s.enqueue b (.holdAnswer x status s.seq)) := by
  simp only [exec, execRelease, if_pos reaches, checked, if_neg refused]

theorem exec_release_taken (reaches : (s.board b).reachesHoldUnit = true)
    (checked : (s.board b).releaseStatus x = .released) :
    exec (.release b x) s = .next (s.setBoard b
      (((s.board b).takeRelease x).enqueue [.holdAnswer x .released s.seq])) := by
  simp only [exec, execRelease, if_pos reaches, checked, if_true, ← State.enqueue_setBoard, State.modifyBoard]

/-- A refused STOP frame is answered and changes nothing else. -/
theorem exec_stopFrame_refused (reaches : (s.board b).reachesHoldUnit = true)
    (checked : (s.board b).stopStatus (decide (s.runState = .running)) = status) (refused : status ≠ .stopping) :
    exec (.stopFrame b x) s = .next (s.enqueue b (.stopAnswer x status s.seq)) := by
  simp only [exec, execStopFrame, if_pos reaches, checked, if_neg refused]

/-- A STOP frame from a member of a RUNNING cabinet is answered over what the entry to DRAINING leaves. -/
theorem exec_stopFrame_taken {t : State} (link : (s.board b).link = .linked) (member : (s.board b).member = true)
    (running : s.runState = .running) (drain : s.enterDraining .trigger (some b) none (some x) = t) :
    exec (.stopFrame b x) s = .next (t.enqueue b (.stopAnswer x .stopping s.seq)) := by
  have checked : (s.board b).stopStatus (decide (s.runState = .running)) = .stopping := by
    simp only [Board.stopStatus_linked link, member, running, decide_true, Bool.true_eq_false, if_false]
  simp only [exec, execStopFrame, if_pos (Board.reachesHoldUnit_of_linked link), checked, if_true, drain]

end Commands

/-- Settles O20: each of R150's checks by the status it gives, and the entry that a HOLD taken leaves. -/
theorem holdsAreCheckedAndAnswered : Obligations.HoldsAreCheckedAndAnswered := by
  intro s b cause
  refine ⟨fun link high => ?_, fun link known => ?_, fun link known outside => ?_, fun link known member held => ?_,
    fun link known member free => ?_, fun link => ?_⟩
  · exact exec_hold_refused (Board.reachesHoldUnit_iff.mpr link) (Board.holdStatus_badParam high) (by decide)
  · exact exec_hold_refused (Board.reachesHoldUnit_of_fault link) (Board.holdStatus_faulted known link) (by decide)
  · have checked : (s.board b).holdStatus cause = .notMember := by
      rw [Board.holdStatus_linked known link, if_pos outside]
    exact exec_hold_refused (Board.reachesHoldUnit_of_linked link) checked (by decide)
  · have checked : (s.board b).holdStatus cause = .already := by
      simp only [Board.holdStatus_linked known link, member, held, Bool.true_eq_false, if_false, if_true]
    exact exec_hold_refused (Board.reachesHoldUnit_of_linked link) checked (by decide)
  · have checked : (s.board b).holdStatus cause = .taken := by
      simp only [Board.holdStatus_linked known link, member, free, Bool.true_eq_false, Bool.false_eq_true, if_false]
    rw [exec_hold_taken (Board.reachesHoldUnit_of_linked link) checked, Board.takeHold_eq]
    simp only [Board.enqueue, decide_eq_true_eq]
  · refine exec_hold_unreached fun reaches => ?_
    rcases link with down | ⟨t, training⟩
    · simp [Board.reachesHoldUnit_iff, down] at reaches
    · simp [Board.reachesHoldUnit_iff, training] at reaches

/-- Settles O21: each of R152's checks by the status it gives, and the entry that a RELEASE taken leaves. -/
theorem releasesAreCheckedAndAnswered : Obligations.ReleasesAreCheckedAndAnswered := by
  intro s b cause
  refine ⟨fun link high => ?_, fun link known late => ?_, fun link known early => ?_, fun link known outside => ?_,
    fun link known member free => ?_, fun link known member held => ?_⟩
  · exact exec_release_refused (Board.reachesHoldUnit_iff.mpr link) (Board.releaseStatus_badParam high) (by decide)
  · have checked : (s.board b).releaseStatus cause = .tooLate := by
      rw [Board.releaseStatus_fault known link, if_pos late]
    exact exec_release_refused (Board.reachesHoldUnit_of_fault link) checked (by decide)
  · have checked : (s.board b).releaseStatus cause = .faulted := by
      simp only [Board.releaseStatus_fault known link, early, Bool.false_eq_true, if_false]
    exact exec_release_refused (Board.reachesHoldUnit_of_fault link) checked (by decide)
  · have checked : (s.board b).releaseStatus cause = .notMember := by
      rw [Board.releaseStatus_linked known link, if_pos outside]
    exact exec_release_refused (Board.reachesHoldUnit_of_linked link) checked (by decide)
  · have checked : (s.board b).releaseStatus cause = .notHeld := by
      simp only [Board.releaseStatus_linked known link, member, free, Bool.true_eq_false, Bool.false_eq_true, if_false]
    exact exec_release_refused (Board.reachesHoldUnit_of_linked link) checked (by decide)
  · have checked : (s.board b).releaseStatus cause = .released := by
      simp only [Board.releaseStatus_linked known link, member, held, Bool.true_eq_false, if_false, if_true]
    rw [exec_release_taken (Board.reachesHoldUnit_of_linked link) checked, Board.takeRelease_eq]
    rfl

/-- Settles O22: each of R159's checks by the status it gives; the draining of a STOP taken waits or completes at once as
the members stand (R98). -/
theorem stopFramesDrainTheRun : Obligations.StopFramesDrainTheRun := by
  intro s b code
  refine ⟨fun link => ?_, fun link outside => ?_, fun link member idle => ?_, fun link member running waits => ?_,
    fun link member running clear => ?_⟩
  · exact exec_stopFrame_refused (Board.reachesHoldUnit_of_fault link) (Board.stopStatus_faulted link) (by decide)
  · have checked : (s.board b).stopStatus (decide (s.runState = .running)) = .notMember := by
      rw [Board.stopStatus_linked link, if_pos outside]
    exact exec_stopFrame_refused (Board.reachesHoldUnit_of_linked link) checked (by decide)
  · have checked : (s.board b).stopStatus (decide (s.runState = .running)) = .notRunning := by
      simp only [Board.stopStatus_linked link, member, idle, decide_false, Bool.true_eq_false, if_false, if_true]
    exact exec_stopFrame_refused (Board.reachesHoldUnit_of_linked link) checked (by decide)
  · exact exec_stopFrame_taken link member running (State.enterDraining_waits waits)
  · exact exec_stopFrame_taken link member running (State.enterDraining_completes clear)

end Sys2Proof.Machine
end

section
/-! SUPPORT. The slots of a board's requests (R161, R162): the entry that a REQUEST from a LINKED board leaves, by what its
slot holds, and the statement O23. -/

namespace Sys2Proof.Machine

section Requests
variable {s : State} {b : BoardNo} {tag : Tag} {kind : BitVec 7} {params : List Byte}

theorem requestLengthOk_iff : requestLengthOk params = true ↔ params.length ≤ 17 := decide_eq_true_iff

theorem exec_request_enters (link : (s.board b).link = .linked) (short : params.length ≤ 17)
    (free : (s.board b).slot tag = .empty) :
    exec (.request b tag kind params) s = .next (s.setBoard b ((s.board b).setSlot tag (.waiting kind params))) := by
  simp only [exec, execRequest, if_pos (requestLengthOk_iff.mpr short), if_pos ((Board.isLinked_iff _).mpr link), free,
    State.modifyBoard]

/-- Both kinds of a slot in use get the one answer, which takes no slot. -/
theorem exec_request_slotBusy (link : (s.board b).link = .linked) (short : params.length ≤ 17)
    (used : (s.board b).slot tag ≠ .empty) :
    exec (.request b tag kind params) s =
      .next (s.setBoard b ((s.board b).enqueue [.reply tag kind .slotBusy []])) := by
  simp only [exec, execRequest, if_pos (requestLengthOk_iff.mpr short), if_pos ((Board.isLinked_iff _).mpr link)]
  cases held : (s.board b).slot tag with
  | empty => exact absurd held used
  | waiting kind' params' => rfl
  | replied => rfl

end Requests

/-- Settles O23: what the slot named by the tag holds decides between its being written and the SLOT_BUSY reply. -/
theorem requestsEnterAnEmptySlot : Obligations.RequestsEnterAnEmptySlot := by
  intro s b tag kind params link short
  exact ⟨exec_request_enters link short, exec_request_slotBusy link short⟩

end Sys2Proof.Machine
end

section
/-! SUPPORT. What a step can do, said once: the moves of a board entry, the moves of the part, and that every command
and every idle step is a chain of them. An invariant that the moves keep is kept by every step. -/

namespace Sys2Proof.Machine

open Sys2Proof.Safety

/-! The record requests by their kind -/

/-- What the Domain Table does with a request of a kind (R164). -/
def RecordKind.take : RecordKind → Owner → List Byte → State → Taken
  | .create => takeCreate
  | .find => takeFind
  | .lookup => takeLookup
  | .list => takeList
  | .listFrom => takeListFrom
  | .attach => takeAttach
  | .detach => takeDetach
  | .start => takeStart
  | .resume => takeResume
  | .revise => takeRevise
  | .pause => takePause
  | .retire => takeRetire
  | .cancel => takeCancel
  | .setStop => takeSetStop

/-- The command that grants a request of a kind is its grant (R164, R165). -/
theorem exec_grantCommand (k : RecordKind) (s : State) : exec (grantCommand k.code) s = s.grantOf k k.take := by
  cases k <;> rfl

/-- What a request taken leaves: the records, the LIST cursor within its range, and a calendar that loses no entry; its
answer is never SLOT_BUSY, which is the slot's own (R23, R162). -/
structure Taken.Writes (s : State) (t : Taken) : Prop where
  state : t.state =
    { s with records := t.state.records, calendar := t.state.calendar, listCursor := t.state.listCursor }
  cursor : t.state.listCursor = s.listCursor ∨ t.state.listCursor ≤ 48
  calendar : t.state.calendar = s.calendar ∨ t.state.calendar ≠ []
  status : t.status ≠ .slotBusy

section Writes
variable {s : State} {d : DomainNo} {who : Owner}

theorem Taken.writes_refuse {status : Status} (h : status ≠ .slotBusy) : (s.refuse status).Writes s :=
  ⟨rfl, .inl rfl, .inl rfl, h⟩

/-- A request that changes no record. -/
theorem Taken.writes_answer {status : Status} {data : List Byte} {n : List (Notice × BoardSet)}
    (h : status ≠ .slotBusy) : (⟨s, status, data, n⟩ : Taken).Writes s := ⟨rfl, .inl rfl, .inl rfl, h⟩

theorem Taken.writes_setDomain {x : Option Domain} {status : Status} {data : List Byte}
    {n : List (Notice × BoardSet)} (h : status ≠ .slotBusy) : (⟨s.setDomain d x, status, data, n⟩ : Taken).Writes s :=
  ⟨rfl, .inl rfl, .inl rfl, h⟩

theorem Taken.writes_withOwned {k : Domain → Taken} (h : ∀ r, s.domain d = some r → (k r).Writes s) :
    (s.withOwned who d k).Writes s := by
  unfold State.withOwned
  split
  · exact Taken.writes_refuse (by decide)
  · split
    · exact h _ (by assumption)
    · exact Taken.writes_refuse (by decide)

theorem Taken.writes_withRecord {k : Domain → Taken} (h : ∀ r, s.domain d = some r → (k r).Writes s) :
    (s.withRecord d k).Writes s := by
  unfold State.withRecord
  split
  · exact Taken.writes_refuse (by decide)
  · exact h _ (by assumption)

theorem Taken.writes_activate {r : Domain} {x : Entry} {data : List Byte} {n : List (Notice × BoardSet)} :
    (⟨s.activate d r x, .ok, data, n⟩ : Taken).Writes s :=
  ⟨rfl, .inl rfl, .inr (Calendar.insert_ne_nil _ _), by simp⟩

theorem Taken.writes_retireNow {r : Domain} : (s.retireNow d r).Writes s := by
  refine ⟨?_, .inl (State.freeDomain_listCursor s d), .inl (State.freeDomain_calendar s d), by simp [State.retireNow]⟩
  unfold State.retireNow State.freeDomain
  split <;> rfl

theorem State.companionCheck_ne_slotBusy {c : Companion} {status : Status} (h : s.companionCheck c = some status) :
    status ≠ .slotBusy := by
  rintro rfl
  unfold State.companionCheck at h
  split at h
  · exact absurd h (by decide)
  · split at h
    · exact absurd h (by decide)
    · split_ifs at h <;> exact absurd h (by decide)

theorem State.sourceCheck_ne_slotBusy {x : Source} {status : Status} (h : s.sourceCheck x = some status) :
    status ≠ .slotBusy := by
  cases x with
  | primary p => exact nomatch h
  | companion c => exact State.companionCheck_ne_slotBusy h

theorem Taken.writes_allocate {q : CreateParams} {data : List Byte} :
    (⟨s.allocate d q who, .ok, data, []⟩ : Taken).Writes s := by
  unfold State.allocate
  split <;> exact ⟨rfl, .inl rfl, .inl rfl, by simp⟩

theorem Taken.writes_walk (n : Nat) : (s.walk n).Writes s := by
  unfold State.walk
  split
  · exact ⟨rfl, .inr (Nat.zero_le 48), .inl rfl, by simp⟩
  · split
    · exact ⟨rfl, .inr (Fin.isLt _), .inl rfl, by simp⟩
    · exact Taken.writes_refuse (by decide)

theorem Taken.writes_refuseList {params : List Byte} {n : Nat} : (s.refuseList params n).Writes s := by
  unfold State.refuseList
  split <;> exact Taken.writes_refuse (by decide)

theorem Taken.writes_applyRevise {q : ReviseParams} {r : Domain} : (s.applyRevise q r).Writes s := by
  unfold State.applyRevise
  split
  · refine Taken.writes_setDomain ?_
    split <;> decide
  · exact Taken.writes_setDomain (by decide)

end Writes

/-- Every request writes what a request may write. -/
theorem RecordKind.take_writes (k : RecordKind) (who : Owner) (params : List Byte) (s : State) :
    (k.take who params s).Writes s := by
  cases k with
  | create =>
    simp only [RecordKind.take, takeCreate]
    split
    · exact Taken.writes_refuse (by decide)
    · split
      · exact Taken.writes_refuse (by decide)
      · split
        · exact Taken.writes_refuse (by decide)
        · split
          · exact Taken.writes_refuse (State.sourceCheck_ne_slotBusy (by assumption))
          · exact Taken.writes_allocate
  | find =>
    simp only [RecordKind.take, takeFind]
    split
    · exact Taken.writes_refuse (by decide)
    · split
      · exact Taken.writes_refuse (by decide)
      · exact Taken.writes_answer (by decide)
  | lookup =>
    simp only [RecordKind.take, takeLookup]
    split
    · exact Taken.writes_refuse (by decide)
    · exact Taken.writes_withRecord fun r _ => Taken.writes_answer (by decide)
  | list =>
    simp only [RecordKind.take, takeList]
    split
    · exact Taken.writes_walk _
    · exact Taken.writes_refuseList
  | listFrom =>
    simp only [RecordKind.take, takeListFrom]
    split
    · exact Taken.writes_refuseList
    · split
      · exact Taken.writes_refuse (by decide)
      · exact Taken.writes_walk _
  | attach =>
    simp only [RecordKind.take, takeAttach]
    split
    · exact Taken.writes_refuse (by decide)
    · refine Taken.writes_withRecord fun r _ => ?_
      split
      · exact Taken.writes_refuse (by decide)
      · exact Taken.writes_setDomain (by decide)
  | detach =>
    simp only [RecordKind.take, takeDetach]
    split
    · exact Taken.writes_refuse (by decide)
    · refine Taken.writes_withRecord fun r _ => ?_
      split
      · exact Taken.writes_setDomain (by decide)
      · exact Taken.writes_refuse (by decide)
  | start =>
    simp only [RecordKind.take, takeStart]
    split
    · exact Taken.writes_refuse (by decide)
    · refine Taken.writes_withOwned fun r _ => ?_
      split
      · exact Taken.writes_refuse (by decide)
      · exact Taken.writes_refuse (by decide)
      · split
        · exact Taken.writes_refuse (by decide)
        · exact Taken.writes_activate
  | resume =>
    simp only [RecordKind.take, takeResume]
    split
    · exact Taken.writes_refuse (by decide)
    · refine Taken.writes_withOwned fun r _ => ?_
      split
      · exact Taken.writes_refuse (by decide)
      · exact Taken.writes_refuse (by decide)
      · split
        · exact Taken.writes_refuse (by decide)
        · exact Taken.writes_activate
  | revise =>
    simp only [RecordKind.take, takeRevise]
    split
    · exact Taken.writes_refuse (by decide)
    · refine Taken.writes_withOwned fun r _ => ?_
      split_ifs
      · exact Taken.writes_refuse (by decide)
      · exact Taken.writes_refuse (by decide)
      · exact Taken.writes_refuse (by decide)
      · exact Taken.writes_applyRevise
  | pause =>
    simp only [RecordKind.take, takePause]
    split
    · exact Taken.writes_refuse (by decide)
    · refine Taken.writes_withOwned fun r _ => ?_
      split
      · exact Taken.writes_refuse (by decide)
      · exact Taken.writes_refuse (by decide)
      · split
        · exact Taken.writes_refuse (by decide)
        · split
          · exact Taken.writes_setDomain (by decide)
          all_goals exact Taken.writes_refuse (by decide)
  | retire =>
    simp only [RecordKind.take, takeRetire]
    split
    · exact Taken.writes_refuse (by decide)
    · refine Taken.writes_withOwned fun r _ => ?_
      split
      · exact Taken.writes_refuse (by decide)
      · split
        · exact Taken.writes_retireNow
        · exact Taken.writes_retireNow
        · exact Taken.writes_setDomain (by decide)
        · exact Taken.writes_setDomain (by decide)
        · exact Taken.writes_setDomain (by decide)
        · exact Taken.writes_setDomain (by decide)
        · exact Taken.writes_refuse (by decide)
  | cancel =>
    simp only [RecordKind.take, takeCancel]
    split
    · exact Taken.writes_refuse (by decide)
    · refine Taken.writes_withOwned fun r _ => ?_
      split
      · exact Taken.writes_refuse (by decide)
      · exact Taken.writes_refuse (by decide)
      · exact Taken.writes_refuse (by decide)
      · exact Taken.writes_setDomain (by decide)
      · exact Taken.writes_setDomain (by decide)
      · exact Taken.writes_setDomain (by decide)
      · exact Taken.writes_refuse (by decide)
  | setStop =>
    simp only [RecordKind.take, takeSetStop]
    split
    · exact Taken.writes_refuse (by decide)
    · exact Taken.writes_withOwned fun r _ => Taken.writes_setDomain (by decide)

/-! Moves -/

/-- The attempt with its next probe, sent at an instant (R116). -/
def Training.advance (t : Training) (run : List Nat) (clock : Nat) : Training :=
  { t with probeCount := t.probeCount + 1, run := run, sent := clock }

/-- The moves of one board entry in a run state, with K and the clock at that instant. -/
inductive BoardMove (run : RunState) (filterK clock : Nat) (e : Board) : Board → Prop
  | signal (x : Bool) : BoardMove run filterK clock e { e with signal := x }
  | beginTraining (h : e.link = .down) :
    BoardMove run filterK clock e { e with link := .training (Training.begin filterK clock) }
  | loseTraining (t : Training) (h : e.link = .training t) : BoardMove run filterK clock e { e with link := .down }
  | loseAnswers (h : e.link = .fault) : BoardMove run filterK clock e { e with txQueue := [] }
  | missProbe (t : Training) (h : e.link = .training t) (more : t.probeCount < 64) :
    BoardMove run filterK clock e
      { e with link := .training (t.advance [] clock) }
  | answerProbe (t : Training) (roundTrip : Nat) (h : e.link = .training t) (more : t.probeCount < 64)
    (least : 1 ≤ roundTrip) (most : roundTrip ≤ 10000) (short : (agree t.run roundTrip).length ≠ t.filterK) :
    BoardMove run filterK clock e
      { e with link := .training (t.advance (agree t.run roundTrip) clock) }
  | failTraining (t : Training) (h : e.link = .training t) :
    BoardMove run filterK clock e { e with link := .fault, lastFault := some .trainFailed }
  | enterLinked (b : BoardNo) (t : Training) (roundTrip : Nat) (c : Capacity) (h : e.link = .training t)
    (least : 1 ≤ roundTrip) (most : roundTrip ≤ 10000) (full : (agree t.run roundTrip).length = t.filterK) :
    BoardMove run filterK clock e (e.enterLinked b (agree t.run roundTrip) c)
  | takeHold (cause : Byte) (h : e.link = .linked) (member : e.member = true) (known : cause.toNat ≤ 3) :
    BoardMove run filterK clock e (e.takeHold (decide (run = .running)) clock cause)
  | takeRelease (cause : Byte) : BoardMove run filterK clock e (e.takeRelease cause)
  | enqueue (f : Frame) (h : e.reachesHoldUnit = true) (k : ∀ t, f.occupies t = false) :
    BoardMove run filterK clock e (e.enqueue [f])
  | request (t : Tag) (kind : BitVec 7) (params : List Byte) (h : e.link = .linked) (free : e.slot t = .empty) :
    BoardMove run filterK clock e (e.setSlot t (.waiting kind params))
  | reply (t : Tag) (kind kind' : BitVec 7) (params : List Byte) (status : Status) (data : List Byte)
    (h : e.slot t = .waiting kind params) (known : status ≠ .slotBusy) :
    BoardMove run filterK clock e ((e.setSlot t .replied).enqueue [.reply t kind' status data])
  | sendHead : BoardMove run filterK clock e e.sendHead
  | retrain (h : e.link = .fault) : BoardMove run filterK clock e { e with timedOut := 0, txQueue := [], link := .down }
  | limits (q : BoardLimits) (idle : run ≠ .running) (clear : e.outstanding = 0) (window : 1 ≤ q.window ∧ q.window ≤ 8)
    (hold : q.holdLimit ≤ 65535) (ack : 1 ≤ q.ackBase ∧ q.ackBase ≤ 65535) :
    BoardMove run filterK clock e { e with window := q.window, holdLimit := q.holdLimit, ackBase := q.ackBase }
  | readAckWait : BoardMove run filterK clock e { e with longestAckWait := 0 }

/-- A chain of moves of one board entry. -/
def BoardMoves (run : RunState) (filterK clock : Nat) : Board → Board → Prop :=
  Relation.ReflTransGen (BoardMove run filterK clock)

/-- `t` is `s` but for the phase, the levels of the lines, the counters of sets and free values, the arbiter's pointer,
the service port, the pending events and the queue. -/
def State.SameCore (s t : State) : Prop :=
  t = { s with
    phase := t.phase, haltAsserted := t.haltAsserted, seq := t.seq, pointer := t.pointer, slot := t.slot,
    frame := t.frame, sdo := t.sdo, events := t.events, freeCount := t.freeCount, pending := t.pending }

/-- The moves of the part, each with the conditions under which it is made. -/
inductive Move (s : State) : State → Prop
  | same (t : State) (h : s.SameCore t) (queue : t.pending = s.pending) : Move s t
  | passTo (instant : Nat) : Move s (s.passTo instant)
  | escalation (n : Nat) (h : n ≤ s.escalationE) : Move s { s with escalation := n }
  | cabinet (k e : Nat) (hk : k = 4 ∨ k = 8 ∨ k = 16) (he : 1 ≤ e ∧ e ≤ 31) :
    Move s { s with filterK := k, escalationE := e }
  | mask (m : Nat) (h : m ≤ 7) : Move s { s with mask := m }
  | powerOn (phase : Phase) : Move s (s.powerOnValues phase)
  | softReset (phase : Phase) : Move s (s.softResetValues phase)
  | boards (v : Vector Board 64) (h : ∀ b : BoardNo, BoardMoves s.runState s.filterK s.clock (s.board b) v[b]) :
    Move s { s with boards := v }
  | fault (b : BoardNo) (kind : FaultKind) (h : (s.board b).link = .linked) : Move s (s.faultLinked b kind)
  | holdExpired (b : BoardNo) (h : (s.board b).link = .linked) :
    Move s ((s.modifyBoard b fun e => { e with timedOut := e.held }).faultLinked b .holdTimeout)
  | drop (b : BoardNo) (h : (s.board b).link = .linked) : Move s (s.dropLinked b)
  | ack (b : BoardNo) (h : (s.board b).link = .linked) (member : (s.board b).member = true)
    (sent : 0 < (s.board b).outstanding) : Move s ((s.modifyBoard b fun e => e.takeAck s.clock).completeDraining)
  | drain (cause : StopCause) (b : Option BoardNo) (d : Option DomainNo) (code : Option Byte)
    (h : s.runState = .running) : Move s (s.enterDraining cause b d code)
  | halt (cause : StopCause) (b : Option BoardNo) (code : Option Byte) : Move s (s.enterHalted cause b code)
  | startRun (budget : Budget) (h : s.runState = .stopped) (member : s.anyMember = true)
    (range : BudgetInRange budget) : Move s (s.startRun budget)
  | resync (h : s.runState = .stopped) (member : s.anyMember = true) : Move s s.resync
  | rewind (h : s.runState = .stopped) (member : s.anyMember = true) : Move s s.rewind
  | advance (x : Entry) (rest : List Entry) (h : s.advanceCondition = true) (head : s.calendar = x :: rest) :
    Move s (s.advanceAt x.time)
  | clear (h : s.runState = .halted) (may : s.mayClear = true) :
    Move s { s with runState := .stopped, furtherFaults := 0 }
  | enroll (b : BoardNo) (still : s.standsStill = true) (h : (s.board b).link = .linked) :
    Move s (s.modifyBoard b fun e => { e with member := true })
  | expel (b : BoardNo) (still : s.standsStill = true) :
    Move s ((s.modifyBoard b Board.expelled).mapDomains fun _ r => r.withoutBoard b)
  | take (k : RecordKind) (who : Owner) (params : List Byte) : Move s (k.take who params s).state

/-- A chain of moves. -/
def Moves : State → State → Prop := Relation.ReflTransGen Move

/-- What every move keeps, a chain of moves keeps. -/
theorem Moves.keeps {P : State → Prop} (h : ∀ s t, P s → Move s t → P t) {s t : State} (hs : P s) (m : Moves s t) :
    P t := by
  induction m with
  | refl => exact hs
  | tail _ m ih => exact h _ _ ih m

theorem BoardMoves.keeps {P : Board → Prop} {run : RunState} {filterK clock : Nat}
    (h : ∀ e f, P e → BoardMove run filterK clock e f → P f) {e f : Board} (he : P e)
    (m : BoardMoves run filterK clock e f) : P f := by
  induction m with
  | refl => exact he
  | tail _ m ih => exact h _ _ ih m

/-- A command completes, and what it does is a chain of moves. -/
def State.Reaches (s : State) (r : Result) : Prop := ∃ t, r = .next t ∧ Moves s t

theorem State.reaches_next {s t : State} (h : Moves s t) : s.Reaches (.next t) := ⟨t, rfl, h⟩

theorem Moves.refl (s : State) : Moves s s := Relation.ReflTransGen.refl

theorem Move.moves {s t : State} (h : Move s t) : Moves s t := Relation.ReflTransGen.single h

theorem Moves.trans {s t u : State} (h : Moves s t) (k : Moves t u) : Moves s u := Relation.ReflTransGen.trans h k

theorem Moves.then {s t u : State} (h : Moves s t) (k : Move t u) : Moves s u := Relation.ReflTransGen.tail h k

theorem Move.then {s t u : State} (h : Move s t) (k : Move t u) : Moves s u := h.moves.then k

/-! Moves of boards -/

section Boards
variable {s : State} {b : BoardNo}

theorem BoardMove.moves {run : RunState} {filterK clock : Nat} {e f : Board} (h : BoardMove run filterK clock e f) :
    BoardMoves run filterK clock e f := Relation.ReflTransGen.single h

theorem BoardMoves.refl {run : RunState} {filterK clock : Nat} (e : Board) : BoardMoves run filterK clock e e :=
  Relation.ReflTransGen.refl

theorem Move.setBoard {e : Board} (h : BoardMoves s.runState s.filterK s.clock (s.board b) e) :
    Move s (s.setBoard b e) := by
  refine .boards _ fun c => ?_
  have read : (s.boards.set b e)[c] = (s.setBoard b e).board c := rfl
  rw [read, State.board_setBoard]
  split
  · rename_i same
    exact same ▸ h
  · exact .refl _

/-- One entry changed by one of its moves. -/
theorem Move.modifyBoard {f : Board → Board} (h : BoardMove s.runState s.filterK s.clock (s.board b) (f (s.board b))) :
    Move s (s.modifyBoard b f) := Move.setBoard h.moves

theorem Move.mapBoards {f : BoardNo → Board → Board}
    (h : ∀ b, BoardMoves s.runState s.filterK s.clock (s.board b) (f b (s.board b))) : Move s (s.mapBoards f) := by
  refine .boards _ fun c => ?_
  have read : (Vector.ofFn fun b => f b (s.board b))[c] = (s.mapBoards f).board c := rfl
  rw [read, State.board_mapBoards]
  exact h c

/-- An answer joins the queue of a link that the Hold Unit serves. -/
theorem Move.enqueue {f : Frame} (h : (s.board b).reachesHoldUnit = true) (k : ∀ t, f.occupies t = false) :
    Move s (s.enqueue b f) := Move.modifyBoard (.enqueue f h k)

theorem Move.queueNotice (n : Notice) (dest : BoardSet) : Move s (s.queueNotice n dest) := by
  refine Move.mapBoards fun b => ?_
  split
  · rename_i h
    rw [Bool.and_eq_true] at h
    exact (BoardMove.enqueue _ (Board.reachesHoldUnit_of_linked ((Board.isLinked_iff _).mp h.1)) fun _ => rfl).moves
  · exact .refl _

theorem Moves.queueNotices (l : List (Notice × BoardSet)) : Moves s (s.queueNotices l) := by
  unfold State.queueNotices
  induction l generalizing s with
  | nil => exact .refl s
  | cons n l ih =>
    rw [List.foldl_cons]
    exact Moves.trans (Move.queueNotice n.1 n.2).moves ih

theorem Move.raise (s : State) (e : Event) : Move s (s.raise e) :=
  .same (s.raise e) (by unfold State.SameCore; rfl) (State.raise_pending s e)

theorem Move.sendFrames (s : State) : Move s s.sendFrames := by
  refine Move.mapBoards fun b => ?_
  split
  · exact BoardMove.sendHead.moves
  · exact .refl _

theorem BoardMoves.sendThrough {run : RunState} {filterK clock : Nat} (t : Tag) (n : Nat) (e : Board) :
    BoardMoves run filterK clock e (e.sendThrough t n) := by
  induction n generalizing e with
  | zero => exact .refl e
  | succ n ih =>
    unfold Board.sendThrough
    split
    · exact .refl e
    · split
      · exact BoardMove.sendHead.moves
      · exact Relation.ReflTransGen.head .sendHead (ih _)

end Boards
end Sys2Proof.Machine
end

section
/-! SUPPORT. Every command is a chain of moves, and so is every step. -/

namespace Sys2Proof.Machine

open Sys2Proof.Safety

/-! Lines, training and frames -/

section Links
variable {s : State} {b : BoardNo}

theorem Move.trainFailed {t : Training} (h : (s.board b).link = .training t) : Moves s (s.trainFailed b) := by
  unfold State.trainFailed
  exact (Move.modifyBoard (.failTraining t h)).then (Move.raise _ _)

/-- A missing probe (R116, R119). -/
theorem Moves.probeMissing {t : Training} (h : (s.board b).link = .training t) : Moves s (s.probeMissing b t) := by
  unfold State.probeMissing State.nextProbe Config.probeLimit
  split
  · exact Move.trainFailed h
  · exact (Move.modifyBoard (.missProbe t h (by omega))).moves

/-- An answered probe (R117 to R119). -/
theorem Moves.probeAnswered {t : Training} {roundTrip : Nat} {c : Capacity} (h : (s.board b).link = .training t)
    (least : 1 ≤ roundTrip) (most : roundTrip ≤ 10000) : Moves s (s.probeAnswered b t roundTrip c) := by
  unfold State.probeAnswered
  split
  · rename_i full
    exact (Move.modifyBoard (.enterLinked b t roundTrip c h least most full)).then (Move.raise _ _)
  · rename_i short
    unfold State.nextProbe Config.probeLimit
    split
    · exact Move.trainFailed h
    · exact (Move.modifyBoard (.answerProbe t roundTrip h (by omega) least most short)).moves

theorem Moves.startTraining (h : (s.board b).link = .down) : Moves s (s.startTraining b) :=
  (Move.modifyBoard (.beginTraining h)).moves

theorem Moves.awaitReception (instant : Nat) : Moves s (s.awaitReception b instant) :=
  State.awaitReception_induction (P := Moves s)
    (fun u t m h _ => m.trans ((Move.passTo t.deadline).moves.trans (Moves.probeMissing (by simpa using h)))) (.refl s)

/-- The waits before a reception leave the clock no later than the reception. -/
theorem State.awaitReception_clock {instant : Nat} (h : s.clock ≤ instant) :
    (s.awaitReception b instant).clock ≤ instant :=
  State.awaitReception_induction (P := fun u => u.clock ≤ instant)
    (fun u t m _ late => by simp only [State.probeMissing, State.nextProbe_clock, State.passTo]; omega) h

/-- After the waits before a reception, the probe that waits is still waiting at the reception: the probes left are as
many as the waits that can end. -/
theorem State.endWaits_deadline {instant : Nat} (n : Nat) (s : State)
    (fuel : ∀ t, (s.board b).link = .training t → t.probesLeft ≤ n) {t : Training}
    (h : ((s.endWaits b instant n).board b).link = .training t) : instant ≤ t.deadline := by
  induction n generalizing s with
  | zero =>
    have := fuel t h
    simp [Training.probesLeft] at this
  | succ n ih =>
    unfold State.endWaits at h
    split at h
    · rename_i u hu
      split at h
      · refine ih _ (fun v hv => ?_) h
        have left := fuel u hu
        unfold State.probeMissing State.nextProbe Config.probeLimit at hv
        split at hv
        · simp [State.trainFailed] at hv
        · simp only [State.board_modifyBoard, if_true, Link.training.injEq] at hv
          subst hv
          simp only [Training.probesLeft, Config.probeLimit] at left ⊢
          omega
      · rename_i early
        rw [hu] at h
        injection h with h
        subst h
        omega
    · simp_all
    · simp_all
    · simp_all

theorem State.awaitReception_deadline {instant : Nat} {t : Training}
    (h : ((s.awaitReception b instant).board b).link = .training t) : instant ≤ t.deadline := by
  unfold State.awaitReception at h
  split at h
  · rename_i u hu
    refine State.endWaits_deadline _ _ (fun v hv => ?_) h
    rw [hu] at hv
    injection hv with hv
    rw [hv]
  · simp_all
  · simp_all
  · simp_all

theorem Moves.badReception (kind : FaultKind) : Moves s (s.badReception b kind) := by
  unfold State.badReception
  dsimp only
  have waits : Moves s (s.awaitReception b s.clock) := .awaitReception s.clock
  split
  · exact waits.then (.fault b kind (by assumption))
  · exact waits.trans (.probeMissing (by assumption))
  · exact waits
  · exact waits

/-- An ECHO received at an instant that is not past (R117; log 20). -/
theorem Moves.receiveEcho {number code : Byte} {instant : Nat} (h : s.clock ≤ instant) :
    Moves s (s.receiveEcho b number code instant) := by
  unfold State.receiveEcho
  dsimp only
  have waits : Moves s (s.awaitReception b instant) := .awaitReception instant
  split
  · rename_i t ht
    have arrives := waits.then (Move.passTo instant)
    have there : (((s.awaitReception b instant).passTo instant).board b).link = .training t := ht
    split
    · split
      · have early : ((s.awaitReception b instant).passTo instant).clock ≤ t.deadline := by
          have := State.awaitReception_deadline ht
          have := State.awaitReception_clock (b := b) h
          simp only [State.passTo]
          omega
        obtain ⟨least, most⟩ := Training.roundTrip_range early
        exact arrives.trans (.probeAnswered there least most)
      · exact arrives.trans (.probeMissing there)
    · exact arrives.trans (.probeMissing there)
  · exact waits
  · exact waits
  · exact waits

theorem Moves.faultBoard (kind : FaultKind) : Moves s (s.faultBoard b kind) := by
  unfold State.faultBoard
  split
  · exact (Move.fault b kind (by assumption)).moves
  all_goals exact .refl s

theorem Moves.takeHaltLine : Moves s s.takeHaltLine := by
  unfold State.takeHaltLine
  split
  · exact (Move.raise s .haltLine).moves
  · exact (Move.raise s .haltLine).then (.halt _ _ _)

theorem Move.watchReceivers : Move s s.watchReceivers := by
  refine Move.mapBoards fun b => ?_
  split
  · rename_i h
    exact (BoardMove.beginTraining h.2).moves
  · exact .refl _

end Links

/-! Holds and stop requests -/

theorem Board.holdStatus_taken {e : Board} {cause : Byte} (h : e.holdStatus cause = .taken) :
    e.link = .linked ∧ e.member = true ∧ cause.toNat ≤ 3 := by
  unfold Board.holdStatus causeOf at h
  split at h
  · exact nomatch h
  · rename_i c hc
    split at hc
    · split_ifs at h with linked member
      exact ⟨(Board.isLinked_iff e).mp (by simpa using linked), by simpa using member, by omega⟩
    · exact nomatch hc

theorem Board.stopStatus_stopping {e : Board} {running : Bool} (h : e.stopStatus running = .stopping) :
    e.link = .linked ∧ e.member = true ∧ running = true := by
  unfold Board.stopStatus at h
  split_ifs at h with linked member run
  exact ⟨(Board.isLinked_iff e).mp (by simpa using linked), by simpa using member, by simpa using run⟩

theorem Board.takeHold_link (e : Board) (run : Bool) (clock : Nat) (cause : Byte) :
    (e.takeHold run clock cause).link = e.link := by
  rw [Board.takeHold_eq]

theorem Board.takeRelease_link (e : Board) (cause : Byte) : (e.takeRelease cause).link = e.link := by
  rw [Board.takeRelease_eq]

theorem Board.reachesHoldUnit_of_link {e f : Board} (h : f.link = e.link) : f.reachesHoldUnit = e.reachesHoldUnit := by
  simp only [Board.reachesHoldUnit, h]

section Frames
variable {s : State} {b : BoardNo}

theorem State.reaches_hold (cause : Byte) : s.Reaches (execHold b cause s) := by
  refine State.reaches_next ?_
  split
  · rename_i reaches
    dsimp only
    split
    · rename_i taken
      obtain ⟨linked, member, known⟩ := Board.holdStatus_taken taken
      refine (Move.modifyBoard (.takeHold cause linked member known)).then (Move.enqueue ?_ fun _ => rfl)
      rw [State.board_modifyBoard, if_pos rfl, Board.reachesHoldUnit_of_link (Board.takeHold_link _ _ _ _), reaches]
    · exact (Move.enqueue reaches fun _ => rfl).moves
  · exact .refl s

theorem State.reaches_release (cause : Byte) : s.Reaches (execRelease b cause s) := by
  refine State.reaches_next ?_
  split
  · rename_i reaches
    dsimp only
    split
    · refine (Move.modifyBoard (.takeRelease cause)).then (Move.enqueue ?_ fun _ => rfl)
      rw [State.board_modifyBoard, if_pos rfl, Board.reachesHoldUnit_of_link (Board.takeRelease_link _ _), reaches]
    · exact (Move.enqueue reaches fun _ => rfl).moves
  · exact .refl s

theorem State.reaches_stopFrame (code : Byte) : s.Reaches (execStopFrame b code s) := by
  refine State.reaches_next ?_
  split
  · rename_i reaches
    dsimp only
    split
    · rename_i stopping
      obtain ⟨_, _, running⟩ := Board.stopStatus_stopping stopping
      refine (Move.drain _ _ _ _ (by simpa using running)).then (Move.enqueue ?_ fun _ => rfl)
      rw [State.board_enterDraining, ← reaches]
      exact Board.reachesHoldUnit_of_link rfl
    · exact (Move.enqueue reaches fun _ => rfl).moves
  · exact .refl s

theorem State.reaches_holdTimeout : s.Reaches (execHoldTimeout b s) := by
  refine State.reaches_next ?_
  split
  · rename_i t _
    split
    · rename_i linked
      exact (Move.passTo t).then (.holdExpired b ((Board.isLinked_iff _).mp linked))
    · exact .refl s
  · exact .refl s

theorem State.reaches_lossOfSignal : s.Reaches (execLossOfSignal b s) := by
  refine State.reaches_next ?_
  have off : Moves s (s.modifyBoard b fun e => { e with signal := false }) := (Move.modifyBoard (.signal false)).moves
  have link : ((s.modifyBoard b fun e => { e with signal := false }).board b).link = (s.board b).link := by simp
  split
  · exact off
  · rename_i t h
    exact off.then (Move.modifyBoard (.loseTraining t (link.trans h)))
  · rename_i h
    exact off.then (.drop b (link.trans h))
  · rename_i h
    exact off.then (Move.modifyBoard (.loseAnswers (link.trans h)))

theorem State.reaches_lineActivity : s.Reaches (execLineActivityDetected b s) := by
  refine State.reaches_next ?_
  have on : Moves s (s.modifyBoard b fun e => { e with signal := true }) := (Move.modifyBoard (.signal true)).moves
  split
  · rename_i h
    split
    · exact on.trans (Moves.startTraining (by simpa using h))
    · exact on
  all_goals exact on

theorem State.reaches_ack (seq16 : BitVec 16) : s.Reaches (execAck b seq16 s) := by
  refine State.reaches_next ?_
  split
  · rename_i linked
    split
    · rename_i h
      exact (Move.ack b linked h.1 h.2.1).moves
    · exact (Move.fault b _ linked).moves
  all_goals exact .refl s

theorem State.reaches_request (tag : Tag) (kind : BitVec 7) (params : List Byte) :
    s.Reaches (execRequest b tag kind params s) := by
  refine State.reaches_next ?_
  split
  · split
    · rename_i linked
      have linked := (Board.isLinked_iff _).mp linked
      have busy : Moves s (s.enqueue b (.reply tag kind .slotBusy [])) :=
        (Move.enqueue (Board.reachesHoldUnit_of_linked linked) fun _ => by simp [Frame.occupies]).moves
      split
      · exact (Move.modifyBoard (.request tag kind params linked (by assumption))).moves
      · exact busy
      · exact busy
    · exact .refl s
  · exact .badReception _

theorem State.reaches_replySent (t : Tag) : s.Reaches (execReplySent b t s) := by
  refine State.reaches_next ?_
  split
  · split
    · exact (Move.setBoard (BoardMoves.sendThrough _ _ _)).moves
    · exact .refl s
  all_goals exact .refl s

end Frames

/-! Grants -/

section Grants
variable {s : State} {g : Grant}

/-- The escalation counter and the slot that the arbiter's next grant names (R161, R166, R167). -/
theorem State.nextGrant_spec (h : s.nextGrant = some g) : g.escalation ≤ s.escalationE ∧
    ∀ b t, g.requester = .board b t → ∃ kind params, (s.board b).slot t = .waiting kind params := by
  have fromBoard : ∀ b, s.boardGrant b = some g → g.escalation ≤ s.escalationE ∧
      ∀ b t, g.requester = .board b t → ∃ kind params, (s.board b).slot t = .waiting kind params := by
    intro b e
    unfold State.boardGrant at e
    split at e
    · exact nomatch e
    · split at e
      · rename_i kind params hs
        injection e with e
        subst e
        refine ⟨Nat.zero_le _, fun c u hc => ?_⟩
        injection hc with hb ht
        exact ⟨kind, params, hb ▸ ht ▸ hs⟩
      · exact nomatch e
      · exact nomatch e
  unfold State.nextGrant at h
  split at h
  · injection h with h
    subst h
    exact ⟨Nat.zero_le _, fun _ _ hc => nomatch hc⟩
  · split at h
    · injection h with h
      subst h
      exact ⟨by assumption, fun _ _ hc => nomatch hc⟩
    · exact fromBoard _ h
  · exact fromBoard _ h
  · exact fromBoard _ h
  · exact nomatch h
  · exact nomatch h

theorem Moves.moveArbiter (h : s.nextGrant = some g) : Moves s (s.moveArbiter g) :=
  (Move.escalation g.escalation (State.nextGrant_spec h).1).then (.same _ (by exact rfl) (by exact rfl))

/-- A reply goes to the slot that waits for it (R24, R165). -/
theorem Move.putReply {status : Status} {data : List Byte} (known : status ≠ .slotBusy)
    (h : ∀ b t, g.requester = .board b t → ∃ kind params, (s.board b).slot t = .waiting kind params) :
    Move s (s.putReply g status data) := by
  unfold State.putReply
  split
  · exact .same _ (by exact rfl) (by exact rfl)
  · rename_i b t hr
    obtain ⟨kind, params, waits⟩ := h b t hr
    exact Move.modifyBoard (.reply t kind _ params status data waits known)

/-- A grant: the arbiter moves, the request is taken, the reply is put and the notices are queued (R24, R165). -/
theorem Moves.grant {body : Owner → List Byte → State → Taken} (h : s.nextGrant = some g)
    (body_moves : ∀ who params u, Moves u (body who params u).state)
    (writes : ∀ who params u, (body who params u).Writes u) : Moves s (s.grant g body) := by
  unfold State.grant
  dsimp only
  refine (Moves.moveArbiter h).trans ((body_moves _ _ _).trans ((Move.putReply (writes _ _ _).status ?_).moves.trans
    (.queueNotices _)))
  intro b t hr
  rw [(writes _ _ _).state]
  exact (State.nextGrant_spec h).2 b t hr

theorem State.reaches_grantOf (k : RecordKind) : s.Reaches (s.grantOf k k.take) := by
  refine State.reaches_next ?_
  split
  · split
    · exact .grant (by assumption) (fun who params u => (Move.take k who params).moves) (k.take_writes)
    · exact .refl s
  · exact .refl s

theorem State.reaches_unknownRequestKind : s.Reaches (execUnknownRequestKind s) := by
  refine State.reaches_next ?_
  split
  · split
    · exact .grant (by assumption) (fun _ _ u => .refl u) fun _ _ u => Taken.writes_refuse (by decide)
    · exact .refl s
  · exact .refl s

end Grants

/-! The service port -/

section Port
variable {s : State} {payload : List Byte}

theorem Moves.endFrame (out : List Byte) : Moves s (s.endFrame out) := (Move.same _ (by exact rfl) (by exact rfl)).moves

theorem Moves.endFiller (n : Nat) : Moves s (s.endFiller n) := .endFrame _

theorem Move.putDone (code : Byte) (status : Status) (data : List Byte) : Move s (s.putDone code status data) :=
  .same _ (by exact rfl) (by exact rfl)

/-- A command that a block answers is the moves of its answer. -/
theorem State.reaches_command {code : Byte} {length : Nat} {body : List Byte → State → Answer}
    (h : ∀ u, Moves u (body payload u).state) : s.Reaches (.next (s.command code length payload body)) := by
  refine State.reaches_next ?_
  unfold State.command
  dsimp only
  split
  · split
    · exact (Moves.endFiller _).trans ((h _).then (.putDone _ _ _))
    · exact (Moves.endFiller _).then (.putDone _ _ _)
  · exact .endFiller _

theorem Moves.checkRun (b : Budget) (range : BudgetInRange b ∨ ∃ l, b = .untilTime l ∧ l < 2 ^ 48) :
    Moves s (s.checkRun b).state := by
  unfold State.checkRun
  split
  · exact .refl s
  · rename_i stopped
    split
    · exact .refl s
    · rename_i member
      have starts : BudgetInRange b → Moves s (s.startRun b) := fun r =>
        (Move.startRun b (by simpa using stopped) (by simpa using member) r).moves
      split
      · split
        · rename_i l ahead
          refine starts ⟨by omega, ?_⟩
          rcases range with r | ⟨l', e, r⟩
          · exact r.2
          · injection e with e
            omega
        · exact .refl s
      · exact starts trivial
      · rcases range with r | ⟨l, e, _⟩
        · exact starts r
        · exact nomatch e

/-- The limit that RUN reads is in its range, but for an UNTIL limit of 0 (R92, R93). -/
theorem parseRun_range {b : Budget} (h : parseRun payload = some b) :
    BudgetInRange b ∨ ∃ l, b = .untilTime l ∧ l < 2 ^ 48 := by
  unfold parseRun at h
  split at h
  · rename_i form v1 v2 v3 v4 v5 v6
    dsimp only at h
    split_ifs at h with f0 z f1 r f2
    · injection h with h
      exact h ▸ .inl trivial
    · injection h with h
      exact h ▸ .inl r.2
    · injection h with h
      refine .inr ⟨_, h.symm, ?_⟩
      have := v1.isLt; have := v2.isLt; have := v3.isLt; have := v4.isLt; have := v5.isLt; have := v6.isLt
      simp only [Bytes.toNat, List.foldl_cons, List.foldl_nil]
      omega
  · exact nomatch h

@[simp] theorem State.answer_state (u : State) (status : Status) : (u.answer status).state = u := rfl

theorem Moves.answerRun : Moves s (answerRun payload s).state := by
  unfold Machine.answerRun
  split
  · exact .refl s
  · exact .checkRun _ (parseRun_range (by assumption))

theorem Moves.answerStop : Moves s (answerStop payload s).state := by
  unfold Machine.answerStop
  split
  · rw [State.answer_state]
    exact Move.moves (.drain _ _ _ _ (by assumption))
  · exact .refl s

theorem Moves.answerClear : Moves s (answerClear payload s).state := by
  unfold Machine.answerClear
  split
  · split
    · exact (Move.clear (by assumption) (by assumption)).moves
    · exact .refl s
  · exact .refl s

theorem Moves.levelSetCommand {t : State} (h : s.runState = .stopped → s.anyMember = true → Moves s t) :
    Moves s (s.levelSetCommand t).state := by
  unfold State.levelSetCommand
  split
  · exact .refl s
  · split
    · exact .refl s
    · exact h (by simp_all) (by simp_all)

theorem Moves.answerAdmit : Moves s (answerAdmit payload s).state := by
  unfold Machine.answerAdmit
  split
  · exact .refl s
  · split_ifs with moving member linked
    · exact .refl s
    · exact .refl s
    · exact .refl s
    · exact (Move.enroll _ (by simpa using moving) ((Board.isLinked_iff _).mp (by simpa using linked))).moves

theorem Moves.answerExpel : Moves s (answerExpel payload s).state := by
  unfold Machine.answerExpel
  split
  · exact .refl s
  · split_ifs with moving member
    · exact .refl s
    · exact .refl s
    · exact (Move.expel _ (by simpa using moving)).moves

theorem Moves.answerRetrain : Moves s (answerRetrain payload s).state := by
  unfold Machine.answerRetrain
  split
  · exact .refl s
  · split
    · rename_i b _ _ fault
      have down : Moves s (s.modifyBoard b fun e => { e with timedOut := 0, txQueue := [], link := .down }) :=
        Move.moves (Move.modifyBoard (.retrain fault))
      rw [State.answer_state, State.retrain]
      split
      · exact down.trans (.startTraining (by simp))
      · exact down
    all_goals exact .refl s

/-- The limits that SET BOARD reads are in their ranges (R130). -/
theorem parseSetBoard_range {q : BoardLimits} (h : parseSetBoard payload = some q) :
    (1 ≤ q.window ∧ q.window ≤ 8) ∧ q.holdLimit ≤ 65535 ∧ 1 ≤ q.ackBase ∧ q.ackBase ≤ 65535 := by
  unfold parseSetBoard at h
  split at h
  · rename_i x w h1 h2 a1 a2
    split at h
    · exact nomatch h
    · split at h
      · rename_i ranges
        injection h with h
        subst h
        have := h1.isLt; have := h2.isLt; have := a1.isLt; have := a2.isLt
        simp only [Bytes.toNat, List.foldl_cons, List.foldl_nil] at ranges ⊢
        omega
      · exact nomatch h
  · exact nomatch h

theorem Moves.answerSetBoard : Moves s (answerSetBoard payload s).state := by
  unfold Machine.answerSetBoard
  split
  · exact .refl s
  · rename_i q hq
    obtain ⟨window, hold, ack⟩ := parseSetBoard_range hq
    split_ifs with running outstanding
    · exact .refl s
    · exact .refl s
    · rw [State.answer_state]
      exact Move.moves (Move.modifyBoard (.limits q running (by simpa using outstanding) window hold ack))

theorem Moves.answerReadBoard : Moves s (answerReadBoard payload s).state := by
  unfold Machine.answerReadBoard
  split
  · exact .refl s
  · dsimp only
    exact Move.moves (Move.modifyBoard .readAckWait)

theorem Moves.answerSetCabinet : Moves s (answerSetCabinet payload s).state := by
  unfold Machine.answerSetCabinet
  split
  · exact .refl s
  · rename_i k e h
    unfold parseSetCabinet at h
    split at h
    · split at h
      · rename_i ranges
        injection h with h
        injection h with hk he
        subst hk he
        exact (Move.cabinet _ _ ranges.1 ranges.2).moves
      · exact nomatch h
    · exact nomatch h

theorem Moves.answerSetMask : Moves s (answerSetMask payload s).state := by
  unfold Machine.answerSetMask
  split
  · exact .refl s
  · rename_i m h
    unfold parseSetMask at h
    split at h
    · split at h
      · rename_i range
        injection h with h
        subst h
        exact (Move.mask _ range).moves
      · exact nomatch h
    · exact nomatch h

theorem State.reaches_softReset : s.Reaches (execSoftReset payload s) := by
  refine State.reaches_next ?_
  dsimp only
  split
  · split
    · exact .endFiller _
    · exact ((Moves.endFiller payload.length).then (.softReset _)).then (.same _ (by exact rfl) (by exact rfl))
  · split
    · exact (Moves.endFiller _).then (.putDone _ _ _)
    · exact .endFiller _

theorem State.reaches_readReply (clocked : Nat) : s.Reaches (execReadReply clocked s) := by
  refine State.reaches_next ?_
  split
  · exact (Move.same _ (by exact rfl) (by exact rfl)).moves
  · exact .endFiller _

theorem Moves.recordFrame (k : RecordKind) (code : Byte) : Moves s (s.recordFrame k code payload) := by
  unfold State.recordFrame
  dsimp only
  split
  · split
    · exact (Moves.endFiller _).then (.same _ (by exact rfl) (by exact rfl))
    · exact (Moves.endFiller _).then (.putDone _ _ _)
  · exact .endFiller _

theorem Moves.unknownFrame (code : Byte) : Moves s (s.unknownFrame code payload) := by
  unfold State.unknownFrame
  dsimp only
  split
  · exact (Moves.endFiller _).then (.putDone _ _ _)
  · exact .endFiller _

theorem State.reaches_run : s.Reaches (execRun payload s) := State.reaches_command fun _ => .answerRun
theorem State.reaches_step : s.Reaches (execStep payload s) :=
  State.reaches_command fun _ => .checkRun _ (.inl (by decide : 1 < 2 ^ 32))
theorem State.reaches_stop : s.Reaches (execStop payload s) := State.reaches_command fun _ => .answerStop
theorem State.reaches_clear : s.Reaches (execClear payload s) := State.reaches_command fun _ => .answerClear
theorem State.reaches_rewind : s.Reaches (execRewind payload s) :=
  State.reaches_command fun _ => .levelSetCommand fun h m => (Move.rewind h m).moves
theorem State.reaches_resync : s.Reaches (execResync payload s) :=
  State.reaches_command fun _ => .levelSetCommand fun h m => (Move.resync h m).moves
theorem State.reaches_readRun : s.Reaches (execReadRun payload s) := State.reaches_command fun u => .refl u
theorem State.reaches_admitBoard : s.Reaches (execAdmitBoard payload s) := State.reaches_command fun _ => .answerAdmit
theorem State.reaches_expel : s.Reaches (execExpel payload s) := State.reaches_command fun _ => .answerExpel
theorem State.reaches_retrain : s.Reaches (execRetrain payload s) := State.reaches_command fun _ => .answerRetrain
theorem State.reaches_setBoard : s.Reaches (execSetBoard payload s) := State.reaches_command fun _ => .answerSetBoard
theorem State.reaches_readBoard : s.Reaches (execReadBoard payload s) :=
  State.reaches_command fun _ => .answerReadBoard
theorem State.reaches_setCabinet : s.Reaches (execSetCabinet payload s) :=
  State.reaches_command fun _ => .answerSetCabinet
theorem State.reaches_identify : s.Reaches (execIdentify payload s) := State.reaches_command fun u => .refl u
theorem State.reaches_readEvents : s.Reaches (execReadEvents payload s) :=
  State.reaches_command fun _ => (Move.same _ (by exact rfl) (by exact rfl)).moves
theorem State.reaches_setMask : s.Reaches (execSetMask payload s) := State.reaches_command fun _ => .answerSetMask

/-- A frame under either row that carries a code. -/
theorem State.reaches_serviceFrame (code : Byte) : s.Reaches (takeServiceFrame code payload s) :=
  takeServiceFrame_cases (P := s.Reaches) (fun k _ => State.reaches_next (.recordFrame k code))
    (fun _ => State.reaches_next (.unknownFrame code)) (fun _ => reaches_run) (fun _ => reaches_step)
    (fun _ => reaches_stop) (fun _ => reaches_clear) (fun _ => reaches_rewind) (fun _ => reaches_resync)
    (fun _ => reaches_readRun) (fun _ => reaches_admitBoard) (fun _ => reaches_expel) (fun _ => reaches_retrain)
    (fun _ => reaches_setBoard) (fun _ => reaches_readBoard) (fun _ => reaches_setCabinet)
    (fun _ => reaches_identify) (fun _ => reaches_softReset) (fun _ => reaches_readEvents) (fun _ => reaches_setMask)
    (fun _ => reaches_readReply _)

end Port

/-! Resets, and every command -/

theorem State.reaches_powerOnReset (s : State) : s.Reaches (execPowerOnReset s) :=
  State.reaches_next ((Move.powerOn .resetHeld).then (.same _ (by exact rfl) (by exact rfl)))

theorem State.reaches_resetNNegated (s : State) : s.Reaches (execResetNNegated s) := by
  refine State.reaches_next ?_
  split
  · exact (Move.same _ (by exact rfl) (by exact rfl)).moves
  · exact .refl s
  · exact .refl s

theorem State.reaches_initialisationComplete (s : State) : s.Reaches (execResetInitialisationComplete s) := by
  refine State.reaches_next ?_
  split
  · rename_i t _
    refine (Move.passTo t).moves.trans ?_
    unfold State.completeInitialisation
    dsimp only
    have serves : ∀ u : State, Moves u (({ u with phase := .ready } : State).raise .resetDone) := fun u =>
      (Move.same _ (by exact rfl) (by exact rfl)).then (Move.raise _ _)
    refine Moves.then (t := _) ?_ Move.watchReceivers
    split
    · exact (serves _).trans .takeHaltLine
    · exact serves _
  · exact .refl s
  · exact .refl s

theorem State.reaches_haltNAsserted (s : State) : s.Reaches (execHaltNAsserted s) := by
  refine State.reaches_next ?_
  split
  · exact .refl s
  · dsimp only
    have level : Moves s { s with haltAsserted := true } := (Move.same _ (by exact rfl) (by exact rfl)).moves
    split
    · exact level.trans .takeHaltLine
    · exact level

theorem State.reaches_advance (s : State) : s.Reaches (execAdvance s) := by
  refine State.reaches_next ?_
  split
  · split
    · exact (Move.advance _ _ (by assumption) (by assumption)).moves
    · exact .refl s
  · exact .refl s

theorem State.reaches_training (s : State) (b : BoardNo) : s.Reaches (execProbeAnswerTimeout b s) := by
  refine State.reaches_next ?_
  split
  · rename_i t h
    exact (Move.passTo t.deadline).moves.trans (.probeMissing (by simpa using h))
  all_goals exact .refl s

theorem State.reaches_echo (s : State) (b : BoardNo) (number code : Byte) (arrival : Nat) :
    s.Reaches (execEcho b number code arrival s) := by
  refine State.reaches_next ?_
  split
  · exact .receiveEcho (Nat.le_max_left _ _)
  all_goals exact .refl s

theorem State.reaches_ackTimeout (s : State) (b : BoardNo) : s.Reaches (execAckTimeout b s) := by
  refine State.reaches_next ?_
  split
  · exact (Move.passTo _).moves.trans (.faultBoard _)
  · exact .refl s

/-- Every command completes, as a chain of moves. -/
theorem exec_reaches (c : Instr) (s : State) : s.Reaches (exec c s) := by
  cases c with
  | powerOnReset => exact s.reaches_powerOnReset
  | resetInitialisationComplete => exact s.reaches_initialisationComplete
  | haltNAsserted => exact s.reaches_haltNAsserted
  | lineActivityDetected b => exact State.reaches_lineActivity
  | lossOfSignal b => exact State.reaches_lossOfSignal
  | probeAnswerTimeout b => exact s.reaches_training b
  | echo b number code arrival => exact s.reaches_echo b number code arrival
  | frameCheck b => exact State.reaches_next (.badReception _)
  | badFrame b => exact State.reaches_next (.badReception _)
  | error b => exact State.reaches_next (.faultBoard _)
  | ack b seq16 => exact State.reaches_ack seq16
  | ackTimeout b => exact s.reaches_ackTimeout b
  | hold b cause => exact State.reaches_hold cause
  | release b cause => exact State.reaches_release cause
  | holdTimeout b => exact State.reaches_holdTimeout
  | stopFrame b code => exact State.reaches_stopFrame code
  | request b tag kind params => exact State.reaches_request tag kind params
  | replySent b tag => exact State.reaches_replySent tag
  | recordCommandEntersSlot code payload => exact State.reaches_serviceFrame code
  | unknownRequestKind => exact State.reaches_unknownRequestKind
  | unknownCommandCode code payload =>
    cases code with
    | none => exact State.reaches_next (.endFrame _)
    | some code => exact State.reaches_serviceFrame code
  | create => exact State.reaches_grantOf .create
  | find => exact State.reaches_grantOf .find
  | lookup => exact State.reaches_grantOf .lookup
  | list => exact State.reaches_grantOf .list
  | listFrom => exact State.reaches_grantOf .listFrom
  | attach => exact State.reaches_grantOf .attach
  | detach => exact State.reaches_grantOf .detach
  | start => exact State.reaches_grantOf .start
  | resume => exact State.reaches_grantOf .resume
  | revise => exact State.reaches_grantOf .revise
  | pause => exact State.reaches_grantOf .pause
  | retire => exact State.reaches_grantOf .retire
  | cancel => exact State.reaches_grantOf .cancel
  | setStop => exact State.reaches_grantOf .setStop
  | advance => exact s.reaches_advance
  | run payload => exact State.reaches_run
  | step payload => exact State.reaches_step
  | stop payload => exact State.reaches_stop
  | clear payload => exact State.reaches_clear
  | rewind payload => exact State.reaches_rewind
  | resync payload => exact State.reaches_resync
  | readRun payload => exact State.reaches_readRun
  | admitBoard payload => exact State.reaches_admitBoard
  | expel payload => exact State.reaches_expel
  | retrain payload => exact State.reaches_retrain
  | setBoard payload => exact State.reaches_setBoard
  | readBoard payload => exact State.reaches_readBoard
  | setCabinet payload => exact State.reaches_setCabinet
  | identify payload => exact State.reaches_identify
  | softReset payload => exact State.reaches_softReset
  | readEvents payload => exact State.reaches_readEvents
  | setMask payload => exact State.reaches_setMask
  | readReply clocked => exact State.reaches_readReply clocked
  | haltNNegated => exact State.reaches_next (Move.same _ (by exact rfl) (by exact rfl)).moves
  | resetNNegated => exact s.reaches_resetNNegated
  | scsNAsserted => exact State.reaches_next (Move.same _ (by exact rfl) (by exact rfl)).moves

theorem Move.freeCount (s : State) (n : Nat) : Move s { s with freeCount := n } := .same _ (by exact rfl) rfl

/-- The period of REFCLK in which nothing is due (log 3). -/
theorem Moves.tick (s : State) : Moves s s.tick := by
  have later : max s.clock (s.clock + 1) = s.clock + 1 := by omega
  have form : s.tick = { s.sendFrames.passTo (s.clock + 1) with freeCount := s.freeCount + 1 } := by
    simp only [State.tick, State.passTo, State.sendFrames, State.mapBoards, later]
  rw [form]
  exact ((Move.sendFrames s).then (.passTo _)).then (Move.freeCount _ _)

/-- What no move breaks and no change outside the core touches, every step keeps. -/
theorem step_keeps {P : State → Prop} (same : ∀ s t, P s → s.SameCore t → P t) (move : ∀ s t, P s → Move s t → P t)
    {s t : State} (hs : P s) (h : step s = .next t) : P t := by
  unfold step at h
  split at h
  · injection h with h
    subst h
    unfold State.idle
    split
    · exact (Moves.tick s).keeps move hs
    · exact same _ _ hs (by exact rfl)
  · rename_i c rest _
    obtain ⟨u, e, m⟩ := exec_reaches c { s with pending := rest }
    rw [e] at h
    injection h with h
    subst h
    exact m.keeps move (same _ _ hs (by exact rfl))

end Sys2Proof.Machine
end

section
/-! SUPPORT. What a departure from LINKED writes, in each case of R102 and R124, and the statement O15; the agreement run
of R117, and the statement O14. -/

namespace Sys2Proof.Machine

open Sys2Proof.Safety

/-! Departures from LINKED -/

section FaultLinked
variable {s : State} {b : BoardNo} (kind : FaultKind)

/-- The entry that a fault leaves. -/
def Board.faulted (e : Board) (kind : FaultKind) : Board := { e.leaveLinked .fault with lastFault := some kind }

theorem State.faultLinked_outside (h : (s.board b).member = false) :
    s.faultLinked b kind = (s.setBoard b ((s.board b).faulted kind)).raise (.boardFault b) := by
  simp only [State.faultLinked, h, Bool.false_eq_true, if_false, Board.faulted]

theorem State.faultLinked_halted (h : (s.board b).member = true) (r : s.runState = .halted) :
    s.faultLinked b kind = { (s.setBoard b ((s.board b).faulted kind)).raise (.boardFault b) with
      furtherFaults := min 255 (s.furtherFaults + 1) } := by
  simp only [State.faultLinked, h, if_true, State.memberLeft, State.raise_runState, State.setBoard_runState, r,
    Board.faulted, State.raise_furtherFaults, State.setBoard_furtherFaults]

theorem State.faultLinked_halts (h : (s.board b).member = true) (r : s.runState ≠ .halted) :
    s.faultLinked b kind = ((s.setBoard b ((s.board b).faulted kind)).raise (.boardFault b)).enterHalted .boardFault
      (some b) (some kind.byte) := by
  simp only [State.faultLinked, h, if_true, State.memberLeft, State.raise_runState, State.setBoard_runState, r, if_false,
    Board.faulted]

theorem State.dropLinked_outside (h : (s.board b).member = false) :
    s.dropLinked b = (s.setBoard b ((s.board b).leaveLinked .down)).raise (.linkDown b) := by
  simp only [State.dropLinked, h, Bool.false_eq_true, if_false]

theorem State.dropLinked_halted (h : (s.board b).member = true) (r : s.runState = .halted) :
    s.dropLinked b = { (s.setBoard b ((s.board b).leaveLinked .down)).raise (.linkDown b) with
      furtherFaults := min 255 (s.furtherFaults + 1) } := by
  simp only [State.dropLinked, h, if_true, State.memberLeft, State.raise_runState, State.setBoard_runState, r,
    State.raise_furtherFaults, State.setBoard_furtherFaults]

theorem State.dropLinked_halts (h : (s.board b).member = true) (r : s.runState ≠ .halted) :
    s.dropLinked b = ((s.setBoard b ((s.board b).leaveLinked .down)).raise (.linkDown b)).enterHalted .linkLost
      (some b) none := by
  simp only [State.dropLinked, h, if_true, State.memberLeft, State.raise_runState, State.setBoard_runState, r, if_false]

end FaultLinked

/-- Settles O15: each departure by membership and by whether the cabinet is HALTED already. -/
theorem leavingLinkedClearsTheBoard : Obligations.LeavingLinkedClearsTheBoard := by
  refine ⟨fun s b kind => ⟨fun outside => ?_, fun member halted => ?_, fun member running => ?_⟩,
    fun s b => ⟨fun outside => ?_, fun member halted => ?_, fun member running => ?_⟩⟩
  · exact State.faultLinked_outside kind outside
  · exact State.faultLinked_halted kind member halted
  · rw [State.faultLinked_halts kind member running, State.enterHalted_eq]
    rfl
  · exact State.dropLinked_outside outside
  · exact State.dropLinked_halted member halted
  · rw [State.dropLinked_halts member running, State.enterHalted_eq]
    rfl

/-! The agreement run (R117) -/

theorem largest_le {l : List Nat} {n : Nat} : largest l ≤ n ↔ ∀ x ∈ l, x ≤ n := by
  have general : ∀ (l : List Nat) (m : Nat), l.foldl max m ≤ n ↔ m ≤ n ∧ ∀ x ∈ l, x ≤ n := by
    intro l
    induction l with
    | nil => simp
    | cons y ys ih => intro m; simp [ih, and_assoc]
  simp [largest, general l 0]

theorem le_smallest {l : List Nat} {n : Nat} (h : l ≠ []) : n ≤ smallest l ↔ ∀ x ∈ l, n ≤ x := by
  have general : ∀ (l : List Nat) (m : Nat), n ≤ l.foldl min m ↔ n ≤ m ∧ ∀ x ∈ l, n ≤ x := by
    intro l
    induction l with
    | nil => simp
    | cons y ys ih => intro m; simp [ih, and_assoc]
  cases l with
  | nil => exact absurd rfl h
  | cons y ys => simp [smallest, general ys y]

/-- The spread is within 2 units exactly when every two values agree. -/
theorem spread_le_iff {l : List Nat} (h : l ≠ []) :
    largest l - smallest l ≤ 2 ↔ ∀ y ∈ l, ∀ z ∈ l, y ≤ z + 2 := by
  constructor
  · intro k y hy z hz
    have above := largest_le.mp (Nat.le_refl (largest l)) y hy
    have below := (le_smallest h).mp (Nat.le_refl (smallest l)) z hz
    omega
  · intro k
    have close : ∀ y ∈ l, y - 2 ≤ smallest l := fun y hy =>
      (le_smallest h).mpr fun z hz => by have := k y hy z hz; omega
    have : largest l ≤ smallest l + 2 := largest_le.mpr fun y hy => by have := close y hy; omega
    omega

/-- What trimming keeps of a run that ends in `x`: a tail with `x` that agrees, and no longer one does. -/
theorem trimRun_spec (run : List Nat) (x : Nat) : ∃ dropped kept, run = dropped ++ kept ∧
    trimRun (run ++ [x]) = kept ++ [x] ∧ (∀ y ∈ kept ++ [x], ∀ z ∈ kept ++ [x], y ≤ z + 2) ∧
    ∀ d, d < dropped.length → ∃ y ∈ run.drop d ++ [x], ∃ z ∈ run.drop d ++ [x], z + 2 < y := by
  induction run with
  | nil => exact ⟨[], [], rfl, by simp [trimRun, largest, smallest, Config.agreementSpread], by simp, by simp⟩
  | cons w ws ih =>
    have disagrees : largest (w :: (ws ++ [x])) - smallest (w :: (ws ++ [x])) > 2 ↔
        ∃ y ∈ w :: (ws ++ [x]), ∃ z ∈ w :: (ws ++ [x]), z + 2 < y := by
      rw [gt_iff_lt, ← not_le, spread_le_iff (by simp)]
      push Not
      rfl
    by_cases wide : largest (w :: (ws ++ [x])) - smallest (w :: (ws ++ [x])) > 2
    · obtain ⟨dropped, kept, split, trim, close, longest⟩ := ih
      refine ⟨w :: dropped, kept, by rw [split]; rfl, ?_, close, fun d hd => ?_⟩
      · rw [List.cons_append, trimRun, Config.agreementSpread, if_pos wide, trim]
      · cases d with
        | zero => exact disagrees.mp wide
        | succ d => exact longest d (by simpa using hd)
    · refine ⟨[], w :: ws, rfl, ?_, ?_, by simp⟩
      · rw [List.cons_append, trimRun, Config.agreementSpread, if_neg wide]
      · exact (spread_le_iff (by simp)).mp (by simpa using wide)

/-- Settles O14, by the induction of `trimRun_spec` on the run. -/
theorem agreementRunKeepsTheLongestAgreeingTail : Obligations.AgreementRunKeepsTheLongestAgreeingTail := by
  intro run x
  obtain ⟨dropped, kept, split, trim, close, longest⟩ := trimRun_spec run x
  refine ⟨dropped, kept, split, trim, ?_, longest⟩
  rw [agree, trim]
  exact close

theorem agree_length (run : List Nat) (x : Nat) : (agree run x).length ≤ run.length + 1 := by
  obtain ⟨dropped, kept, split, trim, _⟩ := trimRun_spec run x
  rw [agree, trim, split]
  simp

theorem mem_agree {run : List Nat} {x y : Nat} (h : y ∈ agree run x) : y ∈ run ∨ y = x := by
  obtain ⟨dropped, kept, split, trim, _⟩ := trimRun_spec run x
  rw [agree, trim] at h
  rw [split]
  simp only [List.mem_append, List.mem_singleton] at h ⊢
  tauto

theorem agree_spread (run : List Nat) (x : Nat) : largest (agree run x) ≤ smallest (agree run x) + 2 := by
  obtain ⟨dropped, kept, _, trim, close, _⟩ := trimRun_spec run x
  have spread := (spread_le_iff (l := agree run x) (by simp [agree, trim])).mpr (by rw [agree, trim]; exact close)
  omega

end Sys2Proof.Machine
end

section
/-! SUPPORT. The ranges (R112, R116, R117, R166, R176): what each move of a board entry and each move of the part keeps of
them, and the statement O53. -/

namespace Sys2Proof.Machine

open Sys2Proof.Safety

/-! Board entries -/

/-- The ranges of one board entry, whose waiting probe was sent at an instant that has come. -/
structure EntryInRange (clock : Nat) (e : Board) : Prop where
  numbers : BoardInRange e
  probe : ∀ t, e.link = .training t → t.sent ≤ clock

/-- Two entries that agree on the numbers of `BoardInRange` are in range together. -/
theorem EntryInRange.of_numbers {clock later : Nat} {e f : Board} (h : EntryInRange clock e) (forward : clock ≤ later)
    (window : f.window = e.window) (hold : f.holdLimit = e.holdLimit) (ack : f.ackBase = e.ackBase)
    (trip : f.roundTrip = e.roundTrip) (wait : f.longestAckWait ≤ 65535)
    (link : ∀ t, f.link = .training t → e.link = .training t) : EntryInRange later f where
  numbers :=
    { window := by rw [window]; exact h.numbers.window
      holdLimit := by rw [hold]; exact h.numbers.holdLimit
      ackBase := by rw [ack]; exact h.numbers.ackBase
      roundTrip := by rw [trip]; exact h.numbers.roundTrip
      ackWait := wait
      training := fun t ht => h.numbers.training t (link t ht) }
  probe := fun t ht => Nat.le_trans (h.probe t (link t ht)) forward

/-- A new attempt or a next probe in an entry whose other numbers stand. -/
theorem EntryInRange.of_training {clock : Nat} {e : Board} (h : EntryInRange clock e) {t : Training}
    (range : TrainingInRange t) (sent : t.sent ≤ clock) : EntryInRange clock { e with link := .training t } where
  numbers :=
    { window := h.numbers.window, holdLimit := h.numbers.holdLimit, ackBase := h.numbers.ackBase
      roundTrip := h.numbers.roundTrip, ackWait := h.numbers.ackWait
      training := fun u hu => by injection hu with hu; exact hu ▸ range }
  probe := fun u hu => by injection hu with hu; exact hu ▸ sent

theorem trainingInRange_begin {filterK clock : Nat} (h : filterK = 4 ∨ filterK = 8 ∨ filterK = 16) :
    TrainingInRange (Training.begin filterK clock) where
  filter := h
  probes := by simp [Training.begin]
  short := by simp only [Training.begin, List.length_nil]; omega
  captured := by simp [Training.begin]
  spread := by simp [Training.begin, largest, smallest]

theorem trainingInRange_missed {t : Training} {clock : Nat} (h : TrainingInRange t) (more : t.probeCount < 64) :
    TrainingInRange (t.advance [] clock) where
  filter := h.filter
  probes := by simp only [Training.advance]; omega
  short := by have := h.filter; simp only [Training.advance, List.length_nil]; omega
  captured := by simp [Training.advance]
  spread := by simp [Training.advance, largest, smallest]

theorem agree_captured {t : Training} {trip : Nat} (h : TrainingInRange t) (least : 1 ≤ trip) (most : trip ≤ 10000) :
    ∀ x ∈ agree t.run trip, 1 ≤ x ∧ x ≤ 10000 := by
  intro x hx
  rcases mem_agree hx with old | rfl
  · exact h.captured x old
  · exact ⟨least, most⟩

/-- An answered probe that does not fill the run leaves one still shorter than K (R117, R118). -/
theorem trainingInRange_answered {t : Training} {clock trip : Nat} (h : TrainingInRange t) (more : t.probeCount < 64)
    (least : 1 ≤ trip) (most : trip ≤ 10000) (short : (agree t.run trip).length ≠ t.filterK) :
    TrainingInRange (t.advance (agree t.run trip) clock) where
  filter := h.filter
  probes := by simp only [Training.advance]; omega
  short := by
    have := agree_length t.run trip
    have := h.short
    simp only [Training.advance]
    omega
  captured := agree_captured h least most
  spread := agree_spread t.run trip

theorem Board.takeHold_numbers (e : Board) (run : Bool) (clock : Nat) (cause : Byte) :
    ∃ held taken timer, e.takeHold run clock cause = { e with held := held, holdsTaken := taken, holdTimer := timer } :=
  ⟨_, _, _, e.takeHold_eq run clock cause⟩

theorem EntryInRange.move {run : RunState} {filterK clock : Nat} {e f : Board}
    (k : filterK = 4 ∨ filterK = 8 ∨ filterK = 16) (h : EntryInRange clock e) (m : BoardMove run filterK clock e f) :
    EntryInRange clock f := by
  have same := h.of_numbers (Nat.le_refl clock) (f := f)
  cases m with
  | signal x => exact same rfl rfl rfl rfl h.numbers.ackWait fun _ => id
  | beginTraining _ => exact h.of_training (trainingInRange_begin k) (Nat.le_refl _)
  | loseTraining t _ => exact same rfl rfl rfl rfl h.numbers.ackWait fun _ => nofun
  | loseAnswers _ => exact same rfl rfl rfl rfl h.numbers.ackWait fun _ => id
  | missProbe t ht more => exact h.of_training (trainingInRange_missed (h.numbers.training t ht) more) (Nat.le_refl _)
  | answerProbe t trip ht more least most short =>
    exact h.of_training (trainingInRange_answered (h.numbers.training t ht) more least most short) (Nat.le_refl _)
  | failTraining t _ => exact same rfl rfl rfl rfl h.numbers.ackWait fun _ => nofun
  | enterLinked b t trip c ht least most full =>
    have captured := agree_captured (h.numbers.training t ht) least most
    exact
      { numbers :=
          { window := h.numbers.window, holdLimit := h.numbers.holdLimit, ackBase := h.numbers.ackBase
            roundTrip := largest_le.mpr fun x hx => (captured x hx).2
            ackWait := h.numbers.ackWait
            training := fun _ => nofun }
        probe := fun _ => nofun }
  | takeHold cause _ _ _ =>
    obtain ⟨held, taken, timer, form⟩ := e.takeHold_numbers (decide (run = .running)) clock cause
    rw [form] at same ⊢
    exact same rfl rfl rfl rfl h.numbers.ackWait fun _ => id
  | takeRelease cause =>
    rw [Board.takeRelease_eq] at same ⊢
    exact same rfl rfl rfl rfl h.numbers.ackWait fun _ => id
  | enqueue f _ _ => exact same rfl rfl rfl rfl h.numbers.ackWait fun _ => id
  | request t kind params _ _ => exact same rfl rfl rfl rfl h.numbers.ackWait fun _ => id
  | reply t kind kind' params status data _ _ => exact same rfl rfl rfl rfl h.numbers.ackWait fun _ => id
  | sendHead =>
    rw [Board.sendHead_eq] at same ⊢
    exact same rfl rfl rfl rfl h.numbers.ackWait fun _ => id
  | retrain _ => exact same rfl rfl rfl rfl h.numbers.ackWait fun _ => nofun
  | limits q _ _ window hold ack =>
    exact
      { numbers :=
          { window := window, holdLimit := hold, ackBase := ack
            roundTrip := h.numbers.roundTrip, ackWait := h.numbers.ackWait, training := h.numbers.training }
        probe := h.probe }
  | readAckWait => exact same rfl rfl rfl rfl (Nat.zero_le _) fun _ => id

section Entries
variable {clock : Nat} {e : Board}

theorem EntryInRange.later {later : Nat} (h : EntryInRange clock e) (forward : clock ≤ later) : EntryInRange later e :=
  h.of_numbers forward rfl rfl rfl rfl h.numbers.ackWait fun _ => id

theorem EntryInRange.disarmed (h : EntryInRange clock e) (timer : Option Nat) :
    EntryInRange clock { e with holdTimer := timer } :=
  h.of_numbers (Nat.le_refl _) rfl rfl rfl rfl h.numbers.ackWait fun _ => id

theorem EntryInRange.leaveLinked (h : EntryInRange clock e) {link : Link} (k : link = .fault ∨ link = .down) :
    EntryInRange clock (e.leaveLinked link) :=
  h.of_numbers (Nat.le_refl _) rfl rfl rfl rfl h.numbers.ackWait fun t ht => by
    rcases k with rfl | rfl <;> exact nomatch ht

theorem EntryInRange.faulted (h : EntryInRange clock e) (kind : FaultKind) : EntryInRange clock (e.faulted kind) :=
  (h.leaveLinked (.inl rfl)).of_numbers (Nat.le_refl _) rfl rfl rfl rfl h.numbers.ackWait fun _ => id

theorem Board.ackWait_le (e : Board) (clock : Nat) : e.ackWait clock ≤ 65535 := by
  unfold Board.ackWait
  split
  · exact Nat.min_le_left _ _
  · exact Nat.zero_le _

theorem EntryInRange.takeAck (h : EntryInRange clock e) : EntryInRange clock (e.takeAck clock) := by
  have wait : max e.longestAckWait (e.ackWait clock) ≤ 65535 := Nat.max_le.mpr ⟨h.numbers.ackWait, e.ackWait_le clock⟩
  unfold Board.takeAck
  dsimp only
  split <;> exact h.of_numbers (Nat.le_refl _) rfl rfl rfl rfl wait fun _ => id

theorem EntryInRange.receiveCopy (h : EntryInRange clock e) (frames : List Frame) :
    EntryInRange clock (e.receiveCopy clock frames) := by
  unfold Board.receiveCopy
  dsimp only
  split <;> exact h.of_numbers (Nat.le_refl _) rfl rfl rfl rfl h.numbers.ackWait fun _ => id

theorem EntryInRange.armHoldTimer (h : EntryInRange clock e) : EntryInRange clock (e.armHoldTimer clock) := by
  unfold Board.armHoldTimer
  split
  · exact h
  · exact h.disarmed _

/-- A board entry after a reset, with limits in their ranges. -/
theorem entryInRange_reset {signal : Bool} {window hold ack : Nat} (w : 1 ≤ window ∧ window ≤ 8) (l : hold ≤ 65535)
    (a : 1 ≤ ack ∧ ack ≤ 65535) : EntryInRange clock
      { Board.powerOn with signal := signal, window := window, holdLimit := hold, ackBase := ack } where
  numbers :=
    { window := w, holdLimit := l, ackBase := a, roundTrip := Nat.zero_le _, ackWait := Nat.zero_le _
      training := fun _ => nofun }
  probe := fun _ => nofun

end Entries

/-! The part -/

/-- The records resolved and the calendar rebuilt touch no number of these (R108). -/
theorem State.resolveAll_outside (s : State) : s.SameOutside s.resolveAll.1 := by
  unfold State.resolveAll
  suffices h : ∀ (l : List DomainNo) (acc : State × List Resolution),
      acc.1.SameOutside (l.foldl State.resolveOne acc).1 from h _ (s, [])
  intro l
  induction l with
  | nil => exact fun acc => .refl _
  | cons d l ih =>
    intro acc
    refine State.SameOutside.trans ?_ (ih _)
    unfold State.resolveOne
    split
    · exact .refl _
    · split
      · rfl
      · exact State.sameOutside_freeDomain _ d
      all_goals rfl

theorem State.rebuildCalendar_outside (s : State) : s.SameOutside s.rebuildCalendar := by
  unfold State.SameOutside State.rebuildCalendar
  rfl

theorem State.resetLevels_outside (s : State) : s.SameOutside s.resetLevels := by
  unfold State.SameOutside State.resetLevels State.mapDomains
  rfl

theorem State.rewindRecords_outside (s : State) : ({ s with time := 0 } : State).SameOutside s.rewindRecords := by
  unfold State.rewindRecords
  exact (State.resolveAll_outside _).trans ((State.resetLevels_outside _).trans (State.rebuildCalendar_outside _))

/-- A reset in one form: what it keeps of a board entry are its signal and limits of their own (R113, R177). -/
theorem State.board_powerOnValues (s : State) (phase : Phase) (b : BoardNo) :
    (s.powerOnValues phase).board b = { Board.powerOn with signal := (s.board b).signal } := by
  simp [State.powerOnValues, State.board]

theorem State.board_softResetValues (s : State) (phase : Phase) (b : BoardNo) :
    (s.softResetValues phase).board b = { Board.powerOn with
      signal := (s.board b).signal
      window := (s.board b).window
      holdLimit := (s.board b).holdLimit
      ackBase := (s.board b).ackBase } := by
  simp [State.softResetValues, State.board]

end Sys2Proof.Machine

namespace Sys2Proof.Safety

open Sys2Proof.Machine

theorem InRange.entry {s : State} (h : InRange s) (b : BoardNo) : EntryInRange s.clock (s.board b) :=
  ⟨h.boards b, h.probes b⟩

/-- The ranges of `t`, from those of `s` and from what may have been written. -/
theorem InRange.frame {s t : State} (h : InRange s) (filterK : t.filterK = s.filterK)
    (escalationE : t.escalationE = s.escalationE) (escalation : t.escalation = s.escalation) (mask : t.mask = s.mask)
    (cursor : t.listCursor = s.listCursor) (faults : t.furtherFaults ≤ 255) (time : t.time < 2 ^ 48)
    (budget : BudgetInRange t.budget) (stop : t.stopRecord.time < 2 ^ 48)
    (boards : ∀ b, EntryInRange t.clock (t.board b)) : InRange t where
  filterK := by rw [filterK]; exact h.filterK
  escalationE := by rw [escalationE]; exact h.escalationE
  escalation := by rw [escalation]; exact h.escalation
  mask := by rw [mask]; exact h.mask
  listCursor := by rw [cursor]; exact h.listCursor
  furtherFaults := faults
  time := time
  budget := budget
  stopTime := stop
  probes := fun b => (boards b).probe
  boards := fun b => (boards b).numbers

/-- Writes to board entries alone. -/
theorem InRange.with_boards {s : State} (h : InRange s) {v : Vector Board 64}
    (boards : ∀ b : BoardNo, EntryInRange s.clock v[b]) : InRange { s with boards := v } :=
  h.frame rfl rfl rfl rfl rfl h.furtherFaults h.time h.budget h.stopTime boards

theorem InRange.setBoard {s : State} (h : InRange s) {b : BoardNo} {e : Board} (he : EntryInRange s.clock e) :
    InRange (s.setBoard b e) :=
  h.frame rfl rfl rfl rfl rfl h.furtherFaults h.time h.budget h.stopTime fun c => by
    rw [State.board_setBoard]
    split
    · exact he
    · exact h.entry c

theorem InRange.mapBoards {s : State} (h : InRange s) {f : BoardNo → Board → Board}
    (hf : ∀ b, EntryInRange s.clock (f b (s.board b))) : InRange (s.mapBoards f) := by
  unfold State.mapBoards
  refine h.with_boards fun c => ?_
  rw [Fin.getElem_fin, Vector.getElem_ofFn]
  exact hf c

theorem InRange.sameCore {s t : State} (h : InRange s) (same : s.SameCore t) : InRange t := by
  unfold State.SameCore at same
  rw [same]
  exact h.frame rfl rfl rfl rfl rfl h.furtherFaults h.time h.budget h.stopTime h.entry

theorem InRange.passTo {s : State} (h : InRange s) (instant : Nat) : InRange (s.passTo instant) :=
  h.frame rfl rfl rfl rfl rfl h.furtherFaults h.time h.budget h.stopTime fun b =>
    (h.entry b).later (Nat.le_max_left _ _)

theorem InRange.raise {s : State} (h : InRange s) (e : Event) : InRange (s.raise e) :=
  h.frame rfl rfl rfl rfl rfl h.furtherFaults h.time h.budget h.stopTime h.entry

theorem InRange.writeRecord {s : State} (h : InRange s) (cause : StopCause) (b : Option BoardNo) (d : Option DomainNo)
    (code : Option Byte) : InRange (s.writeRecord cause b d code) :=
  h.frame rfl rfl rfl rfl rfl h.furtherFaults h.time h.budget h.time h.entry

theorem InRange.withRun {s : State} (h : InRange s) (run : RunState) : InRange { s with runState := run } :=
  h.frame rfl rfl rfl rfl rfl h.furtherFaults h.time h.budget h.stopTime h.entry

theorem InRange.withBudget {s : State} (h : InRange s) {b : Budget} (range : BudgetInRange b) :
    InRange { s with budget := b } :=
  h.frame rfl rfl rfl rfl rfl h.furtherFaults h.time range h.stopTime h.entry

theorem InRange.withFaults {s : State} (h : InRange s) {n : Nat} (range : n ≤ 255) :
    InRange { s with furtherFaults := n } :=
  h.frame rfl rfl rfl rfl rfl range h.time h.budget h.stopTime h.entry

theorem InRange.disarmHoldTimers {s : State} (h : InRange s) : InRange s.disarmHoldTimers :=
  h.mapBoards fun b => (h.entry b).disarmed none

theorem InRange.completeDraining {s : State} (h : InRange s) : InRange s.completeDraining := by
  unfold State.completeDraining
  split
  · exact (h.withRun .stopped).raise .stopped
  · exact h

theorem InRange.enterDraining {s : State} (h : InRange s) (cause : StopCause) (b : Option BoardNo)
    (d : Option DomainNo) (code : Option Byte) : InRange (s.enterDraining cause b d code) :=
  ((h.withRun .draining).writeRecord cause b d code).disarmHoldTimers.completeDraining

theorem InRange.enterHalted {s : State} (h : InRange s) (cause : StopCause) (b : Option BoardNo) (code : Option Byte) :
    InRange (s.enterHalted cause b code) :=
  ((h.withRun .halted).writeRecord cause b none code).disarmHoldTimers.raise .halted

theorem InRange.memberLeft {s : State} (h : InRange s) (b : BoardNo) (kind : Option FaultKind) :
    InRange (s.memberLeft b kind) := by
  unfold State.memberLeft
  split
  · exact h.withFaults (Nat.min_le_left _ _)
  · split <;> exact h.enterHalted _ _ _

theorem InRange.faultLinked {s : State} (h : InRange s) (b : BoardNo) (kind : FaultKind) :
    InRange (s.faultLinked b kind) := by
  have gone := (h.setBoard (b := b) ((h.entry b).faulted kind)).raise (.boardFault b)
  unfold State.faultLinked
  dsimp only
  split
  · exact gone.memberLeft b (some kind)
  · exact gone

theorem InRange.dropLinked {s : State} (h : InRange s) (b : BoardNo) : InRange (s.dropLinked b) := by
  have gone := (h.setBoard (b := b) ((h.entry b).leaveLinked (.inr rfl))).raise (.linkDown b)
  unfold State.dropLinked
  dsimp only
  split
  · exact gone.memberLeft b none
  · exact gone

theorem InRange.startRun {s : State} (h : InRange s) {b : Budget} (range : BudgetInRange b) : InRange (s.startRun b) := by
  have taken := ((h.withBudget range).withRun .running).writeRecord .nothing none none none
  have armed : InRange (({ s with budget := b, runState := .running } : State).writeRecord .nothing none none
      none).armMembers := taken.mapBoards fun b => by
    split
    · exact (h.entry b).armHoldTimer
    · exact h.entry b
  unfold State.startRun
  dsimp only
  split
  · exact armed.enterDraining _ _ _ _
  · exact armed

theorem InRange.deliver {s : State} (h : InRange s) (kind : SetKind) (time : Nat)
    (f : BoardNo → List (DomainNo × Level)) : InRange (s.deliver kind time f) :=
  h.mapBoards fun b => by
    split
    · exact (h.entry b).receiveCopy _
    · exact h.entry b

/-- What touches nothing but the records, the calendar and the pending events. -/
theorem InRange.outside {s t : State} (h : InRange s) (same : s.SameOutside t) : InRange t := by
  unfold State.SameOutside at same
  rw [same]
  exact h.frame rfl rfl rfl rfl rfl h.furtherFaults h.time h.budget h.stopTime h.entry

theorem InRange.queueNotice {s : State} (h : InRange s) (n : Notice) (dest : BoardSet) :
    InRange (s.queueNotice n dest) :=
  h.mapBoards fun b => by
    split
    · exact (h.entry b).of_numbers (Nat.le_refl _) rfl rfl rfl rfl (h.entry b).numbers.ackWait fun _ => id
    · exact h.entry b

theorem InRange.queueNotices {s : State} (h : InRange s) (l : List (Notice × BoardSet)) : InRange (s.queueNotices l) := by
  unfold State.queueNotices
  induction l generalizing s with
  | nil => exact h
  | cons n l ih =>
    rw [List.foldl_cons]
    exact ih (h.queueNotice n.1 n.2)

theorem InRange.withSeq {s : State} (h : InRange s) (n : BitVec 32) : InRange { s with seq := n } :=
  h.sameCore rfl

theorem InRange.withTime {s : State} (h : InRange s) {t : Nat} (range : t < 2 ^ 48) : InRange { s with time := t } :=
  h.frame rfl rfl rfl rfl rfl h.furtherFaults range h.budget h.stopTime h.entry

theorem InRange.levelSet {s : State} (h : InRange s) : InRange s.issueLevelSet := (h.withSeq (s.seq + 1)).deliver _ _ _

theorem InRange.rewind {s : State} (h : InRange s) : InRange s.rewind :=
  (((h.withTime (by decide)).outside s.rewindRecords_outside).levelSet.queueNotices _).enterDraining _ _ _ _

theorem InRange.budgetStop {s : State} (h : InRange s) : InRange s.budgetStop := by
  unfold State.budgetStop
  split
  · rename_i n hb
    have less : BudgetInRange (.sets (n - 1)) := by
      have range := h.budget
      rw [hb] at range
      simp only [BudgetInRange] at range ⊢
      omega
    dsimp only
    split
    · exact (h.withBudget less).enterDraining _ _ _ _
    · exact h.withBudget less
  · exact h
  · exact h

theorem InRange.advanceAt {s : State} (h : InRange s) (t : Nat) : InRange (s.advanceAt t) := by
  unfold State.advanceAt Config.timeLimit
  split
  · exact h.enterDraining _ _ _ _
  · split
    · exact h.enterDraining _ _ _ _
    · rename_i early _
      have range : t < 2 ^ 48 := by omega
      have issued : InRange (State.issueSet (s.processGroup t) t) :=
        ((((h.outside (s.processGroup_outside t)).withTime range).withSeq _).deliver _ _ _).queueNotices _
      have stopped : InRange ((State.issueSet (s.processGroup t) t).breakpointStop (s.processGroup t).breakpoints) := by
        unfold State.breakpointStop
        split
        · exact issued
        · exact issued.enterDraining _ _ _ _
      dsimp only
      unfold State.emptyStop
      split
      · exact stopped.budgetStop.enterDraining _ _ _ _
      · exact stopped.budgetStop

/-- Every move keeps the ranges. -/
theorem InRange.move (s t : State) (h : InRange s) (m : Move s t) : InRange t := by
  cases m with
  | same t same _ => exact h.sameCore same
  | passTo instant => exact h.passTo instant
  | escalation n range => exact { h with escalation := Nat.le_trans range h.escalationE.2 }
  | cabinet k e hk he => exact { h with filterK := hk, escalationE := he }
  | mask m range => exact { h with mask := range }
  | powerOn phase =>
    have entry : ∀ b, EntryInRange 0 ((s.powerOnValues phase).board b) := fun b => by
      rw [State.board_powerOnValues]
      exact entryInRange_reset (window := 2) (hold := 50) (ack := 200) (by decide) (by decide) (by decide)
    exact
      { filterK := .inr (.inl rfl), escalationE := ⟨(by decide : 1 ≤ 4), (by decide : 4 ≤ 31)⟩
        escalation := Nat.zero_le _, mask := Nat.zero_le _, listCursor := Nat.zero_le _
        furtherFaults := Nat.zero_le _, time := Nat.two_pow_pos 48, budget := trivial, stopTime := Nat.two_pow_pos 48
        probes := fun b => ((entry b).later (Nat.zero_le _)).probe, boards := fun b => (entry b).numbers }
  | softReset phase =>
    have entry : ∀ b, EntryInRange 0 ((s.softResetValues phase).board b) := fun b => by
      rw [State.board_softResetValues]
      exact entryInRange_reset (h.boards b).window (h.boards b).holdLimit (h.boards b).ackBase
    exact
      { filterK := h.filterK, escalationE := h.escalationE, escalation := Nat.zero_le _, mask := h.mask
        listCursor := Nat.zero_le _, furtherFaults := Nat.zero_le _, time := Nat.two_pow_pos 48, budget := trivial
        stopTime := Nat.two_pow_pos 48
        probes := fun b => ((entry b).later (Nat.zero_le _)).probe, boards := fun b => (entry b).numbers }
  | boards v moves =>
    exact h.with_boards fun b => (moves b).keeps (fun e f => EntryInRange.move h.filterK) (h.entry b)
  | fault b kind _ => exact h.faultLinked b kind
  | holdExpired b _ =>
    refine InRange.faultLinked (h.setBoard ?_) b .holdTimeout
    exact (h.entry b).of_numbers (Nat.le_refl _) rfl rfl rfl rfl (h.entry b).numbers.ackWait fun _ => id
  | drop b _ => exact h.dropLinked b
  | ack b _ _ _ => exact (h.setBoard (h.entry b).takeAck).completeDraining
  | drain cause b d code _ => exact h.enterDraining cause b d code
  | halt cause b code => exact h.enterHalted cause b code
  | startRun budget _ _ range => exact h.startRun range
  | resync _ _ => exact h.levelSet.enterDraining _ _ _ _
  | rewind _ _ => exact h.rewind
  | advance x rest _ _ => exact h.advanceAt x.time
  | clear _ _ => exact (h.withRun .stopped).withFaults (Nat.zero_le _)
  | enroll b _ _ =>
    exact h.setBoard ((h.entry b).of_numbers (Nat.le_refl _) rfl rfl rfl rfl (h.entry b).numbers.ackWait fun _ => id)
  | expel b _ =>
    have entry : EntryInRange s.clock (s.board b).expelled :=
      (h.entry b).of_numbers (Nat.le_refl _) rfl rfl rfl rfl (h.entry b).numbers.ackWait fun _ => id
    exact (h.setBoard (b := b) entry).outside rfl
  | take k who params =>
    have writes := k.take_writes who params s
    rw [writes.state]
    have cursor : (k.take who params s).state.listCursor ≤ 48 := by
      rcases writes.cursor with same | range
      · exact same ▸ h.listCursor
      · exact range
    exact { h with listCursor := cursor }

/-- Settles O53, by `InRange.move` on the moves of the step. -/
theorem everyStepKeepsTheRanges : Obligations.EveryStepKeepsTheRanges :=
  fun _ _ h e => step_keeps (fun _ _ h same => h.sameCore same) InRange.move h e

end Sys2Proof.Safety
end

section
/-! SUPPORT. The agreement of the board entries with the run state (R88, R98, R102, R124, R138, R149, R154, R157): what each
move keeps of it, and the statement O54. -/

namespace Sys2Proof.Machine

open Sys2Proof.Safety

/-! What a move of a board entry leaves alone -/

/-- No move of a board entry alone changes its membership or its outstanding sets. -/
theorem BoardMove.counts {run : RunState} {filterK clock : Nat} {e f : Board} (m : BoardMove run filterK clock e f) :
    f.member = e.member ∧ f.outstanding = e.outstanding := by
  cases m with
  | takeHold cause _ _ _ =>
    obtain ⟨held, taken, timer, form⟩ := e.takeHold_numbers (decide (run = .running)) clock cause
    rw [form]
    exact ⟨rfl, rfl⟩
  | takeRelease cause =>
    rw [Board.takeRelease_eq]
    exact ⟨rfl, rfl⟩
  | sendHead =>
    rw [Board.sendHead_eq]
    exact ⟨rfl, rfl⟩
  | _ => exact ⟨rfl, rfl⟩

theorem BoardMoves.counts {run : RunState} {filterK clock : Nat} {e f : Board} (m : BoardMoves run filterK clock e f) :
    f.member = e.member ∧ f.outstanding = e.outstanding :=
  m.keeps (P := fun g => g.member = e.member ∧ g.outstanding = e.outstanding)
    (fun _ _ h m => ⟨m.counts.1.trans h.1, m.counts.2.trans h.2⟩) ⟨rfl, rfl⟩

theorem BoardMove.window {run : RunState} {filterK clock : Nat} {e f : Board} (m : BoardMove run filterK clock e f)
    (h : 1 ≤ e.window) : 1 ≤ f.window := by
  cases m with
  | takeHold cause _ _ _ =>
    obtain ⟨held, taken, timer, form⟩ := e.takeHold_numbers (decide (run = .running)) clock cause
    rw [form]
    exact h
  | takeRelease cause =>
    rw [Board.takeRelease_eq]
    exact h
  | sendHead =>
    rw [Board.sendHead_eq]
    exact h
  | limits q _ _ window _ _ => exact window.1
  | _ => exact h

/-! Cause sets (R149) -/

theorem Bits.add_ne_zero {n : Nat} (x : BitVec n) {i : Nat} (h : i < n) : Bits.add x i ≠ 0 := by
  intro k
  have bit := congrArg (fun v => v.getLsbD i) k
  simp [Bits.add, h] at bit

theorem Bits.remove_zero {n : Nat} (i : Nat) : Bits.remove (0 : BitVec n) i = 0 := by
  simp [Bits.remove]

/-! Sending and slots -/

theorem Board.slot_setSlot (e : Board) (t u : Tag) (x : BoardSlot) :
    (e.setSlot t x).slot u = if u = t then x else e.slot u := by
  by_cases h : u = t
  · subst h
    simp [Board.setSlot, Board.slot]
  · have h' : t.val ≠ u.val := fun k => h (Fin.ext k.symm)
    simp [Board.setSlot, Board.slot, h, h']

/-- Sending the head leaves a slot as it is or empties it. -/
theorem Board.slot_sendHead (e : Board) (u : Tag) : e.sendHead.slot u = e.slot u ∨ e.sendHead.slot u = .empty := by
  unfold Board.sendHead
  split
  · exact .inl rfl
  · split
    · split
      · exact .inl rfl
      · rw [Board.slot_setSlot]
        split
        · exact .inr rfl
        · exact .inl rfl
    · exact .inl rfl

/-- The entry of a board when a run is taken: a member that holds a cause has its timer armed (R94, R154). -/
def Board.armed (e : Board) (clock : Nat) : Board :=
  if e.member = true ∧ e.held ≠ 0 then e.armHoldTimer clock else e

theorem Board.armed_eq (e : Board) (clock : Nat) : ∃ timer, e.armed clock = { e with holdTimer := timer } := by
  unfold Board.armed Board.armHoldTimer
  split
  · split
    · exact ⟨e.holdTimer, rfl⟩
    · exact ⟨_, rfl⟩
  · exact ⟨e.holdTimer, rfl⟩

theorem Board.armed_window (e : Board) (clock : Nat) : e.window = (e.armed clock).window := by
  obtain ⟨timer, form⟩ := e.armed_eq clock
  rw [form]

theorem Board.armed_member (e : Board) (clock : Nat) : (e.armed clock).member = e.member := by
  obtain ⟨timer, form⟩ := e.armed_eq clock
  rw [form]

/-- A run as it is taken, before it is known whether the calendar is empty (R94). -/
def State.started (s : State) (b : Budget) : State :=
  (({ s with budget := b, runState := .running } : State).writeRecord .nothing none none none).armMembers

theorem State.board_started (s : State) (b : Budget) (c : BoardNo) :
    (s.started b).board c = (s.board c).armed s.clock := State.board_mapBoards _ _ c

theorem State.startRun_eq (s : State) (b : Budget) : s.startRun b = (s.started b).emptyStop := by
  by_cases empty : s.calendar = []
  · have stops : (s.started b).runState = .running ∧ (s.started b).calendar = [] := ⟨rfl, empty⟩
    rw [State.emptyStop, if_pos stops]
    exact if_pos empty
  · have goes : ¬ ((s.started b).runState = .running ∧ (s.started b).calendar = []) := fun k => empty k.2
    rw [State.emptyStop, if_neg goes]
    exact if_neg empty

theorem Board.isLinked_eq_false {e : Board} : e.isLinked = false ↔ e.link ≠ .linked := by
  simp [Board.isLinked]

end Sys2Proof.Machine

namespace Sys2Proof.Safety

open Sys2Proof.Machine

/-! One board entry -/

section Entries
variable {run : RunState} {e : Board}

/-- Where a link is in neither LINKED nor FAULT, nothing is queued, no slot is used and no cause has timed out. -/
theorem BoardSettled.timedOut_zero (h : BoardSettled run e) (l : e.link ≠ .fault) : e.timedOut = 0 :=
  Classical.byContradiction fun k => l (h.timedOut k).1

/-- A slot in use is a LINKED board's (R161, R168). -/
theorem BoardSettled.linked_of_slot (h : BoardSettled run e) {t : Tag} (k : e.slot t ≠ .empty) : e.link = .linked := by
  by_contra l
  obtain ⟨first, second⟩ := h.slots (Board.isLinked_eq_false.mpr l)
  have both : ∀ u : Tag, u = 0 ∨ u = 1 := by decide
  rcases both t with rfl | rfl
  · exact k first
  · exact k second

/-- Moves of a link between DOWN, TRAINING and FAULT after a failed attempt. -/
theorem BoardSettled.unlinked (h : BoardSettled run e) (old : e.link = .down ∨ ∃ t, e.link = .training t) {l : Link}
    (new : l ≠ .linked) (kind : Option FaultKind) : BoardSettled run { e with link := l, lastFault := kind } := by
  have notLinked : e.isLinked = false := Board.isLinked_eq_false.mpr (by rcases old with k | ⟨t, k⟩ <;> simp [k])
  have noFault : e.link ≠ .fault := by rcases old with k | ⟨t, k⟩ <;> simp [k]
  exact
    { window := h.window, ackTimer := h.ackTimer, holdTimer := h.holdTimer, holdArmed := h.holdArmed
      outOfService := fun _ => h.outOfService (.inr notLinked)
      slots := fun _ => h.slots notLinked
      silent := fun _ => h.silent old
      capacity := fun k => absurd ((Board.isLinked_iff _).mp k) new
      timedOut := fun k => absurd (h.timedOut_zero noFault) k
      memberLinked := fun m r => absurd (h.memberLinked m r) (by simp [notLinked]) }

/-- An entry out of LINKED with nothing outstanding, held, queued or waiting. -/
structure BoardGone (e : Board) : Prop where
  link : e.link ≠ .linked
  outstanding : e.outstanding = 0
  held : e.held = 0
  ackTimer : e.ackTimer = none
  holdTimer : e.holdTimer = none
  queue : e.txQueue = []
  slots : ∀ t, e.slot t = .empty
  timedOut : e.timedOut ≠ 0 → e.link = .fault ∧ e.lastFault = some .holdTimeout

theorem BoardGone.settled (h : BoardGone e) (service : e.member = false ∨ run = .halted) : BoardSettled run e where
  window := by rw [h.outstanding]; exact Nat.zero_le _
  outOfService := fun _ => ⟨h.outstanding, h.held⟩
  ackTimer := by simp [h.ackTimer, h.outstanding]
  holdTimer := fun k => by simp [h.holdTimer] at k
  holdArmed := fun _ k => absurd h.held k
  slots := fun _ => ⟨h.slots 0, h.slots 1⟩
  silent := fun _ => h.queue
  capacity := fun k => absurd ((Board.isLinked_iff e).mp k) h.link
  timedOut := h.timedOut
  memberLinked := fun m r => by
    rcases service with k | k
    · simp [k] at m
    · exact absurd k r

theorem boardGone_leaveLinked {l : Link} (new : l ≠ .linked) (time : e.timedOut = 0) : BoardGone (e.leaveLinked l) where
  link := new
  outstanding := rfl
  held := rfl
  ackTimer := rfl
  holdTimer := rfl
  queue := rfl
  slots := fun t => by simp [Board.leaveLinked, Board.slot]
  timedOut := fun k => absurd time k

/-- The entry of a fault: only HOLD_TIMEOUT leaves causes in the timed-out set (R155). -/
theorem boardGone_faulted {kind : FaultKind} (time : e.timedOut ≠ 0 → kind = .holdTimeout) :
    BoardGone (e.faulted kind) where
  link := by simp [Board.faulted, Board.leaveLinked]
  outstanding := rfl
  held := rfl
  ackTimer := rfl
  holdTimer := rfl
  queue := rfl
  slots := fun t => by simp [Board.faulted, Board.leaveLinked, Board.slot]
  timedOut := fun k => ⟨rfl, by rw [← time k]; rfl⟩

/-- A hold taken arms the timer of a RUNNING cabinet (R150, R154). -/
theorem BoardSettled.takeHold {clock : Nat} {cause : Byte} (h : BoardSettled run e) (linked : e.link = .linked)
    (member : e.member = true) (known : cause.toNat ≤ 3) :
    BoardSettled run (e.takeHold (decide (run = .running)) clock cause) := by
  have isLinked := (Board.isLinked_iff e).mpr linked
  have inService : ¬ (e.member = false ∨ e.isLinked = false) := by simp [member, isLinked]
  have holds : Bits.add e.held cause.toNat ≠ 0 := Bits.add_ne_zero _ (by omega)
  rw [Board.takeHold_eq]
  simp only [decide_eq_true_eq]
  exact
    { window := h.window, ackTimer := h.ackTimer, slots := h.slots, silent := h.silent, capacity := h.capacity
      timedOut := h.timedOut, memberLinked := h.memberLinked
      outOfService := fun k => absurd k inService
      holdTimer := fun k => by
        refine ⟨?_, holds⟩
        dsimp only at k
        split at k
        · rename_i armed
          exact armed.2.1
        · exact (h.holdTimer k).1
      holdArmed := fun r _ limit => by
        dsimp only
        split
        · rfl
        · rename_i armed
          exact h.holdArmed r (fun zero => armed ⟨zero, r, limit⟩) limit }

/-- A release taken disarms the timer with the last cause (R152, R154). -/
theorem BoardSettled.takeRelease {cause : Byte} (h : BoardSettled run e) : BoardSettled run (e.takeRelease cause) := by
  rw [Board.takeRelease_eq]
  exact
    { window := h.window, ackTimer := h.ackTimer, slots := h.slots, silent := h.silent, capacity := h.capacity
      timedOut := h.timedOut, memberLinked := h.memberLinked
      outOfService := fun k => by
        obtain ⟨out, held⟩ := h.outOfService k
        exact ⟨out, by dsimp only; rw [held, Bits.remove_zero]⟩
      holdTimer := fun k => by
        dsimp only at k ⊢
        split at k
        · exact nomatch k
        · exact ⟨(h.holdTimer k).1, by assumption⟩
      holdArmed := fun r left limit => by
        dsimp only at left ⊢
        rw [if_neg left]
        exact h.holdArmed r (fun zero => left (by rw [zero, Bits.remove_zero])) limit }

/-- Frames that join the queue of a LINKED or a FAULT link. -/
theorem BoardSettled.enqueue (h : BoardSettled run e) (reaches : e.reachesHoldUnit = true) (fs : List Frame) :
    BoardSettled run (e.enqueue fs) :=
  { h with
    silent := fun k => by
      rcases Board.reachesHoldUnit_iff.mp reaches with l | l <;> simp [Board.enqueue, l] at k }

theorem BoardSettled.setSlot (h : BoardSettled run e) (linked : e.link = .linked) (t : Tag) (x : BoardSlot) :
    BoardSettled run (e.setSlot t x) :=
  { h with slots := fun k => absurd linked (Board.isLinked_eq_false.mp k) }

theorem BoardSettled.sendHead (h : BoardSettled run e) : BoardSettled run e.sendHead := by
  have queue : e.sendHead.txQueue = e.txQueue.tail := by rw [Board.sendHead_eq]
  have slots : e.isLinked = false → e.sendHead.slot 0 = .empty ∧ e.sendHead.slot 1 = .empty := fun k => by
    obtain ⟨first, second⟩ := h.slots k
    exact ⟨(e.slot_sendHead 0).elim (·.trans first) id, (e.slot_sendHead 1).elim (·.trans second) id⟩
  rw [Board.sendHead_eq] at slots ⊢
  exact { h with slots := slots, silent := fun k => by dsimp only; rw [h.silent k]; rfl }

/-- Every move of a board entry alone keeps its agreement with the run state. -/
theorem BoardSettled.move {filterK clock : Nat} {f : Board} (h : BoardSettled run e)
    (m : BoardMove run filterK clock e f) : BoardSettled run f := by
  cases m with
  | signal x => exact { h with }
  | beginTraining l => exact h.unlinked (l := .training _) (.inl l) nofun e.lastFault
  | loseTraining t l => exact h.unlinked (l := .down) (.inr ⟨t, l⟩) nofun e.lastFault
  | loseAnswers l => exact { h with silent := fun _ => rfl }
  | missProbe t l _ => exact h.unlinked (l := .training _) (.inr ⟨t, l⟩) nofun e.lastFault
  | answerProbe t _ l _ _ _ _ => exact h.unlinked (l := .training _) (.inr ⟨t, l⟩) nofun e.lastFault
  | failTraining t l => exact h.unlinked (l := .fault) (.inr ⟨t, l⟩) nofun (some .trainFailed)
  | enterLinked b t trip c l _ _ _ =>
    have notLinked : e.isLinked = false := by simp [Board.isLinked, l]
    exact
      { window := h.window, ackTimer := h.ackTimer, holdTimer := h.holdTimer, holdArmed := h.holdArmed
        outOfService := fun _ => h.outOfService (.inr notLinked)
        slots := fun _ => h.slots notLinked
        silent := fun k => by rcases k with k | ⟨_, k⟩ <;> exact nomatch k
        capacity := fun _ => rfl
        timedOut := fun k => absurd (h.timedOut_zero (by simp [l])) k
        memberLinked := fun _ _ => rfl }
  | takeHold cause linked member known => exact h.takeHold linked member known
  | takeRelease cause => exact h.takeRelease
  | enqueue f reaches _ => exact h.enqueue reaches [f]
  | request t kind params linked _ => exact h.setSlot linked t _
  | reply t kind kind' params status data waits _ =>
    have linked := h.linked_of_slot (t := t) (by simp [waits])
    exact (h.setSlot linked t .replied).enqueue (Board.reachesHoldUnit_of_linked linked) _
  | sendHead => exact h.sendHead
  | retrain l =>
    have notLinked : e.isLinked = false := Board.isLinked_of_fault l
    exact
      { window := h.window, ackTimer := h.ackTimer, holdTimer := h.holdTimer, holdArmed := h.holdArmed
        outOfService := fun _ => h.outOfService (.inr notLinked)
        slots := fun _ => h.slots notLinked
        silent := fun _ => rfl
        capacity := nofun
        timedOut := fun k => absurd rfl k
        memberLinked := fun m r => absurd (h.memberLinked m r) (by simp [notLinked]) }
  | limits q idle clear _ _ _ =>
    exact { h with window := by rw [clear]; exact Nat.zero_le _, holdArmed := fun r => absurd r idle }
  | readAckWait => exact { h with }

/-- A run that leaves RUNNING, its hold timers disarmed (R98, R154). -/
theorem BoardSettled.calm {next : RunState} (h : BoardSettled run e) (old : run ≠ .halted) (new : next ≠ .running) :
    BoardSettled next { e with holdTimer := none } :=
  { h with
    holdTimer := nofun
    holdArmed := fun r => absurd r new
    memberLinked := fun m _ => h.memberLinked m old }

/-- A cabinet that is HALTED (R102). -/
theorem BoardSettled.halted (h : BoardSettled run e) : BoardSettled .halted { e with holdTimer := none } :=
  { h with holdTimer := nofun, holdArmed := nofun, memberLinked := fun _ r => absurd rfl r }

/-- A LINKED board below its window is sent a copy (R138, R144). -/
theorem BoardSettled.receiveCopy {clock : Nat} {frames : List Frame} (h : BoardSettled run e)
    (linked : e.link = .linked) (member : e.member = true) (room : e.outstanding < e.window) :
    BoardSettled run (e.receiveCopy clock frames) := by
  have isLinked := (Board.isLinked_iff e).mpr linked
  have inService : ¬ (e.member = false ∨ e.isLinked = false) := by simp [member, isLinked]
  have notSilent : ¬ (e.link = .down ∨ ∃ t, e.link = .training t) := by simp [linked]
  unfold Board.receiveCopy
  dsimp only
  split
  · exact { h with
      window := room, outOfService := fun k => absurd k inService, ackTimer := by simp [Board.startAckTimer]
      silent := fun k => absurd k notSilent }
  · rename_i some_outstanding
    exact { h with
      window := room, outOfService := fun k => absurd k inService
      ackTimer := by
        have timer := h.ackTimer
        rw [timer]
        exact decide_eq_decide.mpr ⟨fun _ => Nat.succ_pos _, fun _ => Nat.pos_of_ne_zero some_outstanding⟩
      silent := fun k => absurd k notSilent }

/-- An ACK taken (R140, R144). -/
theorem BoardSettled.takeAck {clock : Nat} (h : BoardSettled run e) (linked : e.link = .linked)
    (member : e.member = true) (sent : 0 < e.outstanding) : BoardSettled run (e.takeAck clock) := by
  have isLinked := (Board.isLinked_iff e).mpr linked
  have inService : ¬ (e.member = false ∨ e.isLinked = false) := by simp [member, isLinked]
  have room : e.outstanding - 1 ≤ e.window := by have := h.window; omega
  unfold Board.takeAck
  dsimp only
  split
  · rename_i last
    exact { h with
      window := room, outOfService := fun k => absurd k inService
      ackTimer := by simp [last] }
  · rename_i more
    exact { h with
      window := room, outOfService := fun k => absurd k inService
      ackTimer := by simp only [Board.startAckTimer, Option.isSome_some]; symm; exact decide_eq_true (by omega) }

end Entries

/-! The part -/

section Part
variable {s : State}

theorem RunSettled.sameCore {t : State} (h : RunSettled s) (same : s.SameCore t) : RunSettled t := by
  unfold State.SameCore at same
  rw [same]
  exact ⟨h.windows, h.boards, h.stopped, h.draining, h.running, h.furtherFaults⟩

/-- The completion of a draining makes its clause of `RunSettled` true, whatever the counts were (R98). -/
theorem RunSettled.completeDraining (windows : ∀ b, 1 ≤ (s.board b).window)
    (boards : ∀ b, BoardSettled s.runState (s.board b))
    (stopped : s.runState = .stopped → ∀ b, (s.board b).outstanding = 0)
    (running : s.runState = .running → s.calendar ≠ [] ∧ ∃ b, (s.board b).member = true)
    (faults : s.runState ≠ .halted → s.furtherFaults = 0) : RunSettled s.completeDraining := by
  unfold State.completeDraining
  split
  · rename_i done
    have clear := s.drained_iff.mp done.2
    have disarmed : ∀ b, (s.board b).holdTimer = none := fun b => by
      by_contra armed
      have := ((boards b).holdTimer (Option.isSome_iff_ne_none.mpr armed)).1
      rw [done.1] at this
      exact nomatch this
    exact
      { windows := windows
        boards := fun b => { boards b with
          holdTimer := fun k => absurd (disarmed b) (Option.isSome_iff_ne_none.mp k)
          holdArmed := nofun
          memberLinked := fun m _ => (boards b).memberLinked m (by rw [done.1]; decide) }
        stopped := fun _ b => by
          cases m : (s.board b).member with
          | true => exact clear b m
          | false => exact ((boards b).outOfService (.inl m)).1
        draining := nofun
        running := nofun
        furtherFaults := fun _ => faults (by rw [done.1]; decide) }
  · rename_i waits
    exact
      { windows := windows, boards := boards, stopped := stopped, running := running, furtherFaults := faults
        draining := fun r => by
          have unclear : ¬ ∀ b, (s.board b).member = true → (s.board b).outstanding = 0 :=
            fun clear => waits ⟨r, s.drained_iff.mpr clear⟩
          push Not at unclear
          obtain ⟨b, m, o⟩ := unclear
          exact ⟨b, m, Nat.pos_of_ne_zero o⟩ }

/-- Entry to DRAINING settles the run when the entries would be settled without their hold timers. -/
theorem RunSettled.enterDraining (windows : ∀ b, 1 ≤ (s.board b).window)
    (boards : ∀ b, BoardSettled .draining { s.board b with holdTimer := none }) (faults : s.furtherFaults = 0)
    (cause : StopCause) (x : Option BoardNo) (d : Option DomainNo) (code : Option Byte) :
    RunSettled (s.enterDraining cause x d code) :=
  RunSettled.completeDraining (fun b => by rw [State.board_disarmHoldTimers]; exact windows b)
    (fun b => by rw [State.board_disarmHoldTimers]; exact boards b) nofun nofun (fun _ => faults)

/-- A RUNNING run is drained. -/
theorem RunSettled.drain (h : RunSettled s) (r : s.runState = .running) (cause : StopCause) (x : Option BoardNo)
    (d : Option DomainNo) (code : Option Byte) : RunSettled (s.enterDraining cause x d code) :=
  .enterDraining h.windows (fun b => (h.boards b).calm (by rw [r]; decide) (by decide))
    (h.furtherFaults (by rw [r]; decide)) cause x d code

/-- Entry to HALTED settles the run when the entries would be settled without their hold timers. -/
theorem RunSettled.enterHalted (windows : ∀ b, 1 ≤ (s.board b).window)
    (boards : ∀ b, BoardSettled .halted { s.board b with holdTimer := none }) (cause : StopCause) (x : Option BoardNo)
    (code : Option Byte) : RunSettled (s.enterHalted cause x code) := by
  rw [State.enterHalted_eq]
  have read : ∀ b, (holdTimersOff s)[b] = { s.board b with holdTimer := none } := fun b => by
    simp [holdTimersOff]
  exact
    { windows := fun b => by
        simp only [State.board]
        rw [read]
        exact windows b
      boards := fun b => by
        simp only [State.board]
        rw [read]
        exact boards b
      stopped := nofun
      draining := nofun
      running := nofun
      furtherFaults := fun r => absurd rfl r }

/-- Writes to board entries that keep membership and counts. -/
theorem RunSettled.with_boards {v : Vector Board 64} (h : RunSettled s) (windows : ∀ b : BoardNo, 1 ≤ v[b].window)
    (boards : ∀ b : BoardNo, BoardSettled s.runState v[b])
    (counts : ∀ b : BoardNo, v[b].member = (s.board b).member ∧ v[b].outstanding = (s.board b).outstanding) :
    RunSettled { s with boards := v } where
  windows := windows
  boards := boards
  stopped := fun r b => (counts b).2.trans (h.stopped r b)
  draining := fun r => by
    obtain ⟨b, m, o⟩ := h.draining r
    exact ⟨b, (counts b).1.trans m, (counts b).2.symm ▸ o⟩
  running := fun r => by
    obtain ⟨c, b, m⟩ := h.running r
    exact ⟨c, b, (counts b).1.trans m⟩
  furtherFaults := h.furtherFaults

/-- The entry of a board that is no member leaves LINKED. -/
theorem RunSettled.setBoard_gone {b : BoardNo} {e : Board} (h : RunSettled s) (gone : BoardGone e)
    (window : 1 ≤ e.window) (member : e.member = false) (old : (s.board b).member = false) :
    RunSettled (s.setBoard b e) where
  windows := fun c => by
    rw [State.board_setBoard]
    split
    · exact window
    · exact h.windows c
  boards := fun c => by
    rw [State.board_setBoard]
    split
    · exact gone.settled (.inl member)
    · exact h.boards c
  stopped := fun r c => by
    rw [State.board_setBoard]
    split
    · exact gone.outstanding
    · exact h.stopped r c
  draining := fun r => by
    obtain ⟨c, m, o⟩ := h.draining r
    have other : c ≠ b := fun k => by rw [k, old] at m; exact nomatch m
    exact ⟨c, by rwa [State.board_setBoard, if_neg other], by rwa [State.board_setBoard, if_neg other]⟩
  running := fun r => by
    obtain ⟨entries, c, m⟩ := h.running r
    have other : c ≠ b := fun k => by rw [k, old] at m; exact nomatch m
    exact ⟨entries, c, by rwa [State.board_setBoard, if_neg other]⟩
  furtherFaults := h.furtherFaults

/-- In HALTED any board may leave LINKED, and the further faults are counted (R102). -/
theorem RunSettled.setBoard_halted {b : BoardNo} {e : Board} (h : RunSettled s) (gone : BoardGone e)
    (window : 1 ≤ e.window) (r : s.runState = .halted) (n : Nat) :
    RunSettled { s.setBoard b e with furtherFaults := n } where
  windows := fun c => by
    have read : 1 ≤ ((s.setBoard b e).board c).window := by
      rw [State.board_setBoard]
      split
      · exact window
      · exact h.windows c
    exact read
  boards := fun c => by
    have read : BoardSettled s.runState ((s.setBoard b e).board c) := by
      rw [State.board_setBoard]
      split
      · exact gone.settled (.inr r)
      · exact h.boards c
    exact read
  stopped := fun k => by rw [State.setBoard_runState, r] at k; exact nomatch k
  draining := fun k => by rw [State.setBoard_runState, r] at k; exact nomatch k
  running := fun k => by rw [State.setBoard_runState, r] at k; exact nomatch k
  furtherFaults := fun k => absurd r k

/-- A member that leaves LINKED halts the cabinet (R102). -/
theorem RunSettled.setBoard_halts {b : BoardNo} {e : Board} (h : RunSettled s) (gone : BoardGone e)
    (window : 1 ≤ e.window) (v : Event) (cause : StopCause) (x : Option BoardNo) (code : Option Byte) :
    RunSettled (((s.setBoard b e).raise v).enterHalted cause x code) := by
  refine .enterHalted (fun c => ?_) (fun c => ?_) cause x code
  · rw [State.board_raise, State.board_setBoard]
    split
    · exact window
    · exact h.windows c
  · rw [State.board_raise, State.board_setBoard]
    split
    · exact (gone.settled (run := .halted) (.inr rfl)).halted
    · exact (h.boards c).halted

theorem RunSettled.withRecords (h : RunSettled s) (v : Vector (Option Domain) 48) :
    RunSettled { s with records := v } :=
  ⟨h.windows, h.boards, h.stopped, h.draining, h.running, h.furtherFaults⟩

theorem RunSettled.raise (h : RunSettled s) (v : Event) : RunSettled (s.raise v) :=
  ⟨h.windows, h.boards, h.stopped, h.draining, h.running, h.furtherFaults⟩

/-- A fault of a LINKED board whose entry may have been given its timed-out causes just before (R155). -/
theorem RunSettled.faultLinked {b : BoardNo} {e : Board} {kind : FaultKind} (h : RunSettled s)
    (window : e.window = (s.board b).window) (member : e.member = (s.board b).member)
    (time : e.timedOut ≠ 0 → kind = .holdTimeout) : RunSettled ((s.setBoard b e).faultLinked b kind) := by
  have gone : BoardGone (e.faulted kind) := boardGone_faulted time
  have window' : 1 ≤ (e.faulted kind).window := by
    have := h.windows b
    simp only [Board.faulted, Board.leaveLinked]
    omega
  have entry : (s.setBoard b e).board b = e := by rw [State.board_setBoard, if_pos rfl]
  cases m : e.member with
  | false =>
    rw [State.faultLinked_outside (s := s.setBoard b e) kind (by rw [entry]; exact m), entry, State.setBoard_setBoard]
    exact (h.setBoard_gone gone window' m (member.symm.trans m)).raise _
  | true =>
    by_cases r : s.runState = .halted
    · rw [State.faultLinked_halted (s := s.setBoard b e) kind (by rw [entry]; exact m) r, entry, State.setBoard_setBoard]
      exact (h.setBoard_halted gone window' r _).raise (.boardFault b)
    · rw [State.faultLinked_halts (s := s.setBoard b e) kind (by rw [entry]; exact m) r, entry, State.setBoard_setBoard]
      exact h.setBoard_halts gone window' _ _ _ _

theorem RunSettled.dropLinked {b : BoardNo} (h : RunSettled s) (linked : (s.board b).link = .linked) :
    RunSettled (s.dropLinked b) := by
  have gone : BoardGone ((s.board b).leaveLinked .down) :=
    boardGone_leaveLinked (by decide) ((h.boards b).timedOut_zero (by rw [linked]; decide))
  have window : 1 ≤ ((s.board b).leaveLinked .down).window := h.windows b
  cases m : (s.board b).member with
  | false =>
    rw [State.dropLinked_outside m]
    exact (h.setBoard_gone gone window m m).raise _
  | true =>
    by_cases r : s.runState = .halted
    · rw [State.dropLinked_halted m r]
      exact (h.setBoard_halted gone window r _).raise (.linkDown b)
    · rw [State.dropLinked_halts m r]
      exact h.setBoard_halts gone window _ _ _ _

/-- The members of a part that is not HALTED are LINKED. -/
theorem RunSettled.member_linked (h : RunSettled s) (r : s.runState ≠ .halted) {b : BoardNo}
    (m : (s.board b).member = true) : (s.board b).link = .linked :=
  (Board.isLinked_iff _).mp ((h.boards b).memberLinked m r)

/-- What a set leaves of one entry: a member's copy, and the notices of a LINKED board (R62, R82, R138). -/
theorem RunSettled.copy_entry (h : RunSettled s) (r : s.runState ≠ .halted)
    (room : ∀ b, (s.board b).member = true → (s.board b).outstanding < (s.board b).window)
    {kind : SetKind} {time : Nat} {f : BoardNo → List (DomainNo × Level)} {u : State} (boards : u.boards = s.boards)
    (l : List (Notice × BoardSet)) (b : BoardNo) :
    BoardSettled s.runState (((u.deliver kind time f).queueNotices l).board b) ∧
      (((u.deliver kind time f).queueNotices l).board b).window = (s.board b).window ∧
      (((u.deliver kind time f).queueNotices l).board b).member = (s.board b).member := by
  have same : u.board b = s.board b := State.board_of_boards boards b
  have delivered : BoardSettled s.runState ((u.deliver kind time f).board b) ∧
      ((u.deliver kind time f).board b).window = (s.board b).window ∧
      ((u.deliver kind time f).board b).member = (s.board b).member := by
    rw [State.board_deliver, same]
    split
    · rename_i m
      refine ⟨(h.boards b).receiveCopy (h.member_linked r m) m (room b m), ?_⟩
      unfold Board.receiveCopy
      dsimp only
      split <;> exact ⟨rfl, rfl⟩
    · exact ⟨h.boards b, rfl, rfl⟩
  rw [State.board_queueNotices]
  generalize (u.deliver kind time f).board b = x at delivered
  split
  · rename_i linked
    exact ⟨delivered.1.enqueue (Board.reachesHoldUnit_of_linked ((Board.isLinked_iff _).mp linked)) _, delivered.2⟩
  · exact delivered

/-- A level set drains the run (R106). -/
theorem RunSettled.levelSet (h : RunSettled s) (r : s.runState = .stopped) {u : State} (boards : u.boards = s.boards)
    (faults : u.furtherFaults = s.furtherFaults) (l : List (Notice × BoardSet)) (cause : StopCause) :
    RunSettled ((u.issueLevelSet.queueNotices l).enterDraining cause none none none) := by
  have notHalted : s.runState ≠ .halted := by rw [r]; decide
  have room : ∀ b, (s.board b).member = true → (s.board b).outstanding < (s.board b).window := fun b _ => by
    rw [h.stopped r b]
    exact h.windows b
  have entry := h.copy_entry notHalted room (kind := .level) (time := u.time) (f := u.levelEntries)
    (u := { u with seq := u.seq + 1 }) boards l
  refine .enterDraining (fun b => ?_) (fun b => ?_) ?_ cause none none none
  · exact (entry b).2.1.symm ▸ h.windows b
  · exact (entry b).1.calm notHalted (by decide)
  · rw [State.queueNotices_furtherFaults]
    exact faults.trans (h.furtherFaults notHalted)

/-- RUNNING, settled but for the calendar: what an advance has before its last stop. -/
structure RunsOn (s : State) : Prop where
  run : s.runState = .running
  windows : ∀ b, 1 ≤ (s.board b).window
  boards : ∀ b, BoardSettled .running (s.board b)
  member : ∃ b, (s.board b).member = true
  furtherFaults : s.furtherFaults = 0

/-- On the way through the stops of an advance: still RUNNING, or settled out of RUNNING. -/
def RunsOrSettled (s : State) : Prop := RunsOn s ∨ RunSettled s ∧ s.runState ≠ .running

theorem RunsOn.drain (h : RunsOn s) (cause : StopCause) (d : Option DomainNo) :
    RunSettled (s.enterDraining cause none d none) ∧ (s.enterDraining cause none d none).runState ≠ .running := by
  refine ⟨.enterDraining h.windows (fun b => (h.boards b).calm (by decide) (by decide)) h.furtherFaults _ _ _ _, ?_⟩
  obtain ⟨run, record, events, form, notRunning, _⟩ := s.enterDraining_form cause none d none
  rw [form]
  exact notRunning

theorem RunsOn.withBudget (h : RunsOn s) (b : Budget) : RunsOn { s with budget := b } :=
  ⟨h.run, h.windows, h.boards, h.member, h.furtherFaults⟩

theorem RunSettled.withBudget (h : RunSettled s) (b : Budget) : RunSettled { s with budget := b } :=
  ⟨h.windows, h.boards, h.stopped, h.draining, h.running, h.furtherFaults⟩

theorem RunsOrSettled.breakpointStop (h : RunsOn s) (l : List DomainNo) : RunsOrSettled (s.breakpointStop l) := by
  unfold State.breakpointStop
  split
  · exact .inl h
  · exact .inr (h.drain _ _)

theorem RunsOrSettled.budgetStop (h : RunsOrSettled s) : RunsOrSettled s.budgetStop := by
  unfold State.budgetStop
  split
  · rename_i n _
    dsimp only
    split
    · rename_i last
      rcases h with k | ⟨_, k⟩
      · exact .inr ((k.withBudget _).drain _ _)
      · exact absurd last.2 k
    · rcases h with k | ⟨k, r⟩
      · exact .inl (k.withBudget _)
      · exact .inr ⟨k.withBudget _, r⟩
  · exact h
  · exact h

theorem RunsOrSettled.emptyStop (h : RunsOrSettled s) : RunSettled s.emptyStop := by
  unfold State.emptyStop
  split
  · rename_i empty
    rcases h with k | ⟨_, k⟩
    · exact (k.drain _ _).1
    · exact absurd empty.1 k
  · rename_i goes
    rcases h with k | ⟨k, _⟩
    · exact
        { windows := k.windows, boards := fun b => by rw [k.run]; exact k.boards b
          stopped := fun r => by rw [k.run] at r; exact nomatch r
          draining := fun r => by rw [k.run] at r; exact nomatch r
          running := fun r => ⟨fun empty => goes ⟨r, empty⟩, k.member⟩
          furtherFaults := fun _ => k.furtherFaults }
    · exact k

/-- The advance condition, read (R90). -/
theorem advanceCondition_iff : s.advanceCondition = true ↔ s.runState = .running ∧ s.calendar ≠ [] ∧
    ∀ b, (s.board b).member = true →
      (s.board b).link = .linked ∧ (s.board b).held = 0 ∧ (s.board b).outstanding < (s.board b).window := by
  simp only [State.advanceCondition, State.everyMember_iff, Board.readyForAdvance, Board.isLinked, Bool.and_eq_true,
    decide_eq_true_eq, and_assoc]

theorem RunSettled.advanceAt (h : RunSettled s) (cond : s.advanceCondition = true) (t : Nat) :
    RunSettled (s.advanceAt t) := by
  obtain ⟨run, _, ready⟩ := advanceCondition_iff.mp cond
  unfold State.advanceAt
  split
  · exact h.drain run _ _ _ _
  · split
    · exact h.drain run _ _ _ _
    · dsimp only
      refine RunsOrSettled.emptyStop (RunsOrSettled.budgetStop (RunsOrSettled.breakpointStop ?_ _))
      have outside := s.processGroup_outside t
      unfold State.SameOutside at outside
      have boards : (s.processGroup t).state.boards = s.boards := by rw [outside]
      have runs : (s.processGroup t).state.runState = s.runState := by rw [outside]
      have faults : (s.processGroup t).state.furtherFaults = s.furtherFaults := by rw [outside]
      have entry := h.copy_entry (by rw [run]; decide) (fun b m => (ready b m).2.2) (kind := .edge) (time := t)
        (f := entriesOf (s.processGroup t).entries) (u := (s.processGroup t).state.stampSet t) boards
        (s.processGroup t).notices
      obtain ⟨b, member⟩ := (h.running run).2
      refine
        { run := by simp only [State.issueSet, State.queueNotices_runState, State.deliver_runState]; exact runs.trans run
          windows := fun b => (entry b).2.1.symm ▸ h.windows b
          boards := fun b => run ▸ (entry b).1
          member := ⟨b, (entry b).2.2.trans member⟩
          furtherFaults := ?_ }
      simp only [State.issueSet, State.queueNotices_furtherFaults, State.deliver_furtherFaults]
      exact faults.trans (h.furtherFaults (by rw [run]; decide))

/-- RUN arms the hold timers of the members that hold a cause (R94, R154). -/
theorem BoardSettled.armed {e : Board} {clock : Nat} (h : BoardSettled .stopped e) :
    BoardSettled .running (e.armed clock) := by
  have off : e.holdTimer.isSome = true → False := fun k => nomatch (h.holdTimer k).1
  unfold Board.armed Board.armHoldTimer
  split
  · rename_i holds
    split
    · rename_i unlimited
      exact { h with
        holdTimer := fun k => (off k).elim, holdArmed := fun _ _ limit => absurd unlimited limit
        memberLinked := fun m _ => h.memberLinked m (by decide) }
    · exact { h with
        holdTimer := fun _ => ⟨rfl, holds.2⟩, holdArmed := fun _ _ _ => rfl
        memberLinked := fun m _ => h.memberLinked m (by decide) }
  · rename_i free
    exact { h with
      holdTimer := fun k => (off k).elim
      holdArmed := fun _ held _ => by
        have member : e.member = true := by
          cases m : e.member with
          | true => rfl
          | false => exact absurd (h.outOfService (.inl m)).2 held
        exact absurd ⟨member, held⟩ free
      memberLinked := fun m _ => h.memberLinked m (by decide) }

theorem RunSettled.startRun (h : RunSettled s) (r : s.runState = .stopped) (member : s.anyMember = true) (b : Budget) :
    RunSettled (s.startRun b) := by
  rw [State.startRun_eq]
  refine RunsOrSettled.emptyStop (.inl ?_)
  obtain ⟨c, m⟩ := s.anyMember_iff.mp member
  exact
    { run := rfl
      windows := fun c => by rw [State.board_started]; exact (s.board c).armed_window _ ▸ h.windows c
      boards := fun c => by
        have entry := h.boards c
        rw [r] at entry
        rw [State.board_started]
        exact entry.armed
      member := ⟨c, by rw [State.board_started]; exact ((s.board c).armed_member _).trans m⟩
      furtherFaults := h.furtherFaults (by rw [r]; decide) }

/-- The entry of an expelled board (R128). -/
theorem BoardSettled.expelled {run : RunState} {e : Board} (h : BoardSettled run e) : BoardSettled run e.expelled :=
  { h with
    window := Nat.zero_le _
    outOfService := fun _ => ⟨rfl, rfl⟩
    ackTimer := rfl
    holdTimer := nofun
    holdArmed := fun _ k => absurd rfl k
    timedOut := fun k => absurd rfl k
    memberLinked := nofun }

/-- Writes to one board entry while the run stands still. -/
theorem RunSettled.setBoard_still {b : BoardNo} {e : Board} (h : RunSettled s) (still : s.standsStill = true)
    (entry : BoardSettled s.runState e) (window : 1 ≤ e.window)
    (clear : s.runState = .stopped → e.outstanding = 0) : RunSettled (s.setBoard b e) := by
  have cases : s.runState = .stopped ∨ s.runState = .halted := by simpa [State.standsStill] using still
  exact
    { windows := fun c => by
        rw [State.board_setBoard]
        split
        · exact window
        · exact h.windows c
      boards := fun c => by
        rw [State.board_setBoard]
        split
        · exact entry
        · exact h.boards c
      stopped := fun r c => by
        rw [State.board_setBoard]
        split
        · exact clear r
        · exact h.stopped r c
      draining := fun r => by rw [State.setBoard_runState] at r; rcases cases with k | k <;> rw [k] at r <;> exact nomatch r
      running := fun r => by rw [State.setBoard_runState] at r; rcases cases with k | k <;> rw [k] at r <;> exact nomatch r
      furtherFaults := h.furtherFaults }

/-- An entry after a reset. -/
theorem boardSettled_reset {signal : Bool} {window hold ack : Nat} : BoardSettled .stopped
    { Board.powerOn with signal := signal, window := window, holdLimit := hold, ackBase := ack } where
  window := Nat.zero_le _
  outOfService := fun _ => ⟨rfl, rfl⟩
  ackTimer := rfl
  holdTimer := nofun
  holdArmed := fun _ k => absurd rfl k
  slots := fun _ => ⟨rfl, rfl⟩
  silent := fun _ => rfl
  capacity := nofun
  timedOut := fun k => absurd rfl k
  memberLinked := nofun

/-- Every move keeps the run settled. -/
theorem RunSettled.move (s t : State) (h : RunSettled s) (m : Move s t) : RunSettled t := by
  cases m with
  | same t same _ => exact h.sameCore same
  | passTo instant => exact ⟨h.windows, h.boards, h.stopped, h.draining, h.running, h.furtherFaults⟩
  | escalation n _ => exact ⟨h.windows, h.boards, h.stopped, h.draining, h.running, h.furtherFaults⟩
  | cabinet k e _ _ => exact ⟨h.windows, h.boards, h.stopped, h.draining, h.running, h.furtherFaults⟩
  | mask m _ => exact ⟨h.windows, h.boards, h.stopped, h.draining, h.running, h.furtherFaults⟩
  | powerOn phase =>
    exact
      { windows := fun b => by rw [State.board_powerOnValues]; exact (by decide : 1 ≤ 2)
        boards := fun b => by rw [State.board_powerOnValues]; exact boardSettled_reset
        stopped := fun _ b => by rw [State.board_powerOnValues]; rfl
        draining := nofun, running := nofun, furtherFaults := fun _ => rfl }
  | softReset phase =>
    exact
      { windows := fun b => by rw [State.board_softResetValues]; exact h.windows b
        boards := fun b => by rw [State.board_softResetValues]; exact boardSettled_reset
        stopped := fun _ b => by rw [State.board_softResetValues]; rfl
        draining := nofun, running := nofun, furtherFaults := fun _ => rfl }
  | boards v moves =>
    exact h.with_boards (fun b => (moves b).keeps (P := fun e => 1 ≤ e.window) (fun _ _ k m => m.window k) (h.windows b))
      (fun b => (moves b).keeps (fun _ _ => BoardSettled.move) (h.boards b)) (fun b => (moves b).counts)
  | fault b kind linked =>
    have time : (s.board b).timedOut ≠ 0 → kind = .holdTimeout :=
      fun k => absurd ((h.boards b).timedOut_zero (by rw [linked]; decide)) k
    have settled := h.faultLinked (b := b) (e := s.board b) rfl rfl time
    have unchanged : s.setBoard b (s.board b) = s := by simp [State.setBoard, State.board]
    rwa [unchanged] at settled
  | holdExpired b _ => exact h.faultLinked rfl rfl fun _ => rfl
  | drop b linked => exact h.dropLinked linked
  | ack b linked member sent =>
    have entry := (h.boards b).takeAck (clock := s.clock) linked member sent
    have keeps : ((s.board b).takeAck s.clock).window = (s.board b).window ∧
        ((s.board b).takeAck s.clock).member = (s.board b).member ∧
        ((s.board b).takeAck s.clock).outstanding = (s.board b).outstanding - 1 := by
      unfold Board.takeAck
      dsimp only
      split <;> exact ⟨rfl, rfl, rfl⟩
    refine .completeDraining (fun c => ?_) (fun c => ?_) (fun r c => ?_) (fun r => ?_) h.furtherFaults
    · rw [State.board_modifyBoard]
      split
      · exact keeps.1.symm ▸ h.windows b
      · exact h.windows c
    · rw [State.board_modifyBoard]
      split
      · exact entry
      · exact h.boards c
    · rw [State.board_modifyBoard]
      split
      · rw [keeps.2.2, h.stopped r b]
      · exact h.stopped r c
    · exact ⟨(h.running r).1, b, by rw [State.board_modifyBoard, if_pos rfl, keeps.2.1]; exact member⟩
  | drain cause b d code r => exact h.drain r cause b d code
  | halt cause b code => exact .enterHalted h.windows (fun b => (h.boards b).halted) cause b code
  | startRun budget r member _ => exact h.startRun r member budget
  | resync r _ => exact h.levelSet r (u := s) rfl rfl [] .resync
  | rewind r _ =>
    have outside := s.rewindRecords_outside
    unfold State.SameOutside at outside
    exact h.levelSet r (u := s.rewindRecords) (by rw [outside]) (by rw [outside]) s.rewindNotices .rewind
  | advance x rest cond _ => exact h.advanceAt cond x.time
  | clear r may =>
    obtain ⟨_, clear⟩ := s.mayClear_iff.mp may
    exact
      { windows := h.windows
        boards := fun b => { h.boards b with
          holdTimer := fun k => by have := ((h.boards b).holdTimer k).1; rw [r] at this; exact nomatch this
          holdArmed := nofun
          memberLinked := fun m _ => (Board.isLinked_iff _).mpr (clear b m).1 }
        stopped := fun _ b => by
          cases m : (s.board b).member with
          | true => exact (clear b m).2
          | false => exact ((h.boards b).outOfService (.inl m)).1
        draining := nofun, running := nofun, furtherFaults := fun _ => rfl }
  | enroll b still linked =>
    have isLinked := (Board.isLinked_iff _).mpr linked
    refine h.setBoard_still still ?_ (h.windows b) (fun r => h.stopped r b)
    exact { h.boards b with
      outOfService := fun k => (h.boards b).outOfService (.inr (k.resolve_left (by simp)))
      memberLinked := fun _ _ => isLinked }
  | expel b still =>
    have settled := h.setBoard_still (b := b) still (h.boards b).expelled (h.windows b) fun _ => rfl
    unfold State.mapDomains
    exact settled.withRecords _
  | take k who params =>
    have writes := k.take_writes who params s
    have calendar : s.calendar ≠ [] → (k.take who params s).state.calendar ≠ [] := fun entries => by
      rcases writes.calendar with same | kept
      · exact same ▸ entries
      · exact kept
    rw [writes.state]
    exact { h with running := fun r => ⟨calendar (h.running r).1, (h.running r).2⟩ }

end Part

/-- Settles O54, by `RunSettled.move` on the moves of the step. -/
theorem everyStepKeepsTheRunSettled : Obligations.EveryStepKeepsTheRunSettled :=
  fun _ _ h e => step_keeps (fun _ _ h same => h.sameCore same) RunSettled.move h e

end Sys2Proof.Safety
end

section
/-! SUPPORT. Slots and the replies queued for them (R161, R163), and the statement O55. -/

namespace Sys2Proof.Safety

open Sys2Proof.Machine

section Entries
variable {e f : Board}

/-- The queue decides: a reply for the slot is in it, and only once. -/
theorem RepliesQueued.of_queue (h : RepliesQueued e) {fs : List Frame} (slots : f.slots = e.slots)
    (queue : f.txQueue = e.txQueue ++ fs) (none : ∀ x ∈ fs, ∀ t, Frame.occupies t x = false) : RepliesQueued f where
  replied := fun t => by
    have slot : f.slot t = e.slot t := by simp only [Board.slot, slots]
    have fresh : fs.any (Frame.occupies t) = false := List.any_eq_false.mpr fun x hx => by simp [none x hx t]
    rw [slot, h.replied t]
    simp only [Board.replyQueued, queue, List.any_append, fresh, Bool.or_false]
  once := fun t => by
    have fresh : fs.countP (Frame.occupies t) = 0 := List.countP_eq_zero.mpr fun x hx => by simp [none x hx t]
    rw [queue, List.countP_append, fresh]
    exact h.once t

theorem RepliesQueued.same (h : RepliesQueued e) (slots : f.slots = e.slots) (queue : f.txQueue = e.txQueue) :
    RepliesQueued f := h.of_queue (fs := []) slots (by rw [queue, List.append_nil]) nofun

/-- Empty slots and an empty queue. -/
theorem repliesQueued_clear (slots : ∀ t, f.slot t = .empty) (queue : f.txQueue = []) : RepliesQueued f where
  replied := fun t => by simp [slots t, Board.replyQueued, queue]
  once := fun t => by simp [queue]

theorem RepliesQueued.not_queued (h : RepliesQueued e) {t : Tag} (k : e.slot t ≠ .replied) :
    e.txQueue.countP (Frame.occupies t) = 0 := by
  have none : e.replyQueued t ≠ true := fun q => k ((h.replied t).mpr q)
  rw [List.countP_eq_zero]
  exact fun x hx o => none (List.any_eq_true.mpr ⟨x, hx, o⟩)

/-- A slot that has no reply is written without one (R162). -/
theorem RepliesQueued.setSlot (h : RepliesQueued e) {t : Tag} {x : BoardSlot} (old : e.slot t ≠ .replied)
    (new : x ≠ .replied) : RepliesQueued (e.setSlot t x) where
  replied := fun u => by
    have queue : (e.setSlot t x).replyQueued u = e.replyQueued u := rfl
    rw [Board.slot_setSlot, queue, ← h.replied u]
    split
    · rename_i same
      subst same
      simp [new, old]
    · exact Iff.rfl
  once := h.once

/-- A reply joins the queue as its slot becomes REPLIED (R165). -/
theorem RepliesQueued.reply (h : RepliesQueued e) {t : Tag} (old : e.slot t ≠ .replied) {kind : BitVec 7}
    {status : Status} {data : List Byte} (known : status ≠ .slotBusy) :
    RepliesQueued ((e.setSlot t .replied).enqueue [.reply t kind status data]) where
  replied := fun u => by
    have slot : ((e.setSlot t .replied).enqueue [.reply t kind status data]).slot u =
        if u = t then .replied else e.slot u := Board.slot_setSlot e t u _
    have queue : ((e.setSlot t .replied).enqueue [.reply t kind status data]).replyQueued u =
        (e.replyQueued u || decide (t = u)) := by
      simp [Board.replyQueued, Board.enqueue, Board.setSlot, Frame.occupies, known]
    rw [slot, queue]
    by_cases same : u = t
    · simp [same]
    · simp [same, Ne.symm same, h.replied u]
  once := fun u => by
    have queue : ((e.setSlot t .replied).enqueue [.reply t kind status data]).txQueue =
        e.txQueue ++ [.reply t kind status data] := rfl
    rw [queue, List.countP_append, List.countP_singleton]
    by_cases same : u = t
    · subst same
      rw [h.not_queued old]
      split <;> decide
    · have other : Frame.occupies u (.reply t kind status data) = false := by simp [Frame.occupies, Ne.symm same]
      simp [other, h.once u]

/-- A reply sent leaves the queue as its slot becomes EMPTY (R163). -/
theorem RepliesQueued.sendHead (h : RepliesQueued e) : RepliesQueued e.sendHead := by
  cases queue : e.txQueue with
  | nil =>
    have same : e.sendHead = e := by simp only [Board.sendHead, queue]
    rw [same]
    exact h
  | cons x fs =>
    by_cases o : ∃ t, Frame.occupies t x = true
    · obtain ⟨t, o⟩ := o
      obtain ⟨kind, status, data, rfl, known⟩ : ∃ kind status data, x = .reply t kind status data ∧ status ≠ .slotBusy := by
        cases x <;> simp [Frame.occupies] at o ⊢
        exact ⟨o.1, o.2⟩
      rw [Board.sendHead_reply queue known]
      have others : ∀ u, u ≠ t → Frame.occupies u (.reply t kind status data) = false := fun u ne => by
        simp [Frame.occupies, Ne.symm ne]
      have gone : fs.countP (Frame.occupies t) = 0 := by
        have once := h.once t
        rw [queue, List.countP_cons, if_pos o] at once
        omega
      exact
        { replied := fun u => by
            have slot := Board.slot_setSlot { e with txQueue := fs } t u .empty
            rw [slot]
            by_cases same : u = t
            · subst same
              rw [if_pos rfl]
              simp only [Board.replyQueued, Board.setSlot, List.any_eq_true, reduceCtorEq, false_iff]
              rintro ⟨y, hy, oy⟩
              exact List.countP_eq_zero.mp gone y hy oy
            · rw [if_neg same]
              have old := h.replied u
              simp only [Board.replyQueued, queue, List.any_cons, others u same, Bool.false_or] at old
              exact old
          once := fun u => by
            have once := h.once u
            rw [queue, List.countP_cons] at once
            have tail : (({ e with txQueue := fs } : Board).setSlot t .empty).txQueue = fs := rfl
            rw [tail]
            omega }
    · have free : ∀ t, Frame.occupies t x = false := fun t => by
        by_contra k
        exact o ⟨t, by simpa using k⟩
      rw [Board.sendHead_slots queue free]
      exact
        { replied := fun t => by
            have old := h.replied t
            simp only [Board.replyQueued, queue, List.any_cons, free t, Bool.false_or] at old
            exact old
          once := fun t => by
            have once := h.once t
            rw [queue, List.countP_cons, free t] at once
            simpa using once }

/-- Every move of a board entry keeps its replies queued; where a link is out of LINKED its slots are EMPTY. -/
theorem RepliesQueued.move {run : RunState} {filterK clock : Nat} (h : RepliesQueued e) (settled : BoardSettled run e)
    (m : BoardMove run filterK clock e f) : RepliesQueued f := by
  have unused : e.link = .fault → ∀ t, e.slot t = .empty := fun l t => by
    by_contra k
    have linked := settled.linked_of_slot k
    rw [l] at linked
    exact nomatch linked
  cases m with
  | signal x => exact h.same rfl rfl
  | beginTraining l => exact h.same rfl rfl
  | loseTraining t l => exact h.same rfl rfl
  | loseAnswers l => exact repliesQueued_clear (unused l) rfl
  | missProbe t l _ => exact h.same rfl rfl
  | answerProbe t _ l _ _ _ _ => exact h.same rfl rfl
  | failTraining t l => exact h.same rfl rfl
  | enterLinked b t trip c l _ _ _ =>
    have queue : e.txQueue = [] := settled.silent (.inr ⟨t, l⟩)
    exact h.of_queue (fs := [.linkReady b _ _]) rfl (by simp only [Board.enterLinked, queue]; rfl)
      fun x hx u => by rw [List.mem_singleton.mp hx]; rfl
  | takeHold cause _ _ _ => rw [Board.takeHold_eq]; exact h.same rfl rfl
  | takeRelease cause => rw [Board.takeRelease_eq]; exact h.same rfl rfl
  | enqueue x _ free => exact h.of_queue rfl rfl fun y hy u => by rw [List.mem_singleton.mp hy]; exact free u
  | request t kind params _ empty => exact h.setSlot (by rw [empty]; nofun) nofun
  | reply t kind kind' params status data waits known => exact h.reply (by rw [waits]; nofun) known
  | sendHead => exact h.sendHead
  | retrain l => exact repliesQueued_clear (unused l) rfl
  | limits q _ _ _ _ _ => exact h.same rfl rfl
  | readAckWait => exact h.same rfl rfl

theorem RepliesQueued.moves {run : RunState} {filterK clock : Nat} (h : RepliesQueued e) (settled : BoardSettled run e)
    (m : BoardMoves run filterK clock e f) : RepliesQueued f :=
  (m.keeps (P := fun g => BoardSettled run g ∧ RepliesQueued g) (fun _ _ k m => ⟨k.1.move m, k.2.move k.1 m⟩)
    ⟨settled, h⟩).2

theorem numberParts_occupies (kind : SetKind) (n : BitVec 16) (time i : Nat) (l : List (List (DomainNo × Level))) :
    ∀ x ∈ numberParts kind n time i l, ∀ t, Frame.occupies t x = false := by
  induction l generalizing i with
  | nil => exact nofun
  | cons y ys ih =>
    intro x hx t
    rcases List.mem_cons.mp hx with rfl | hx
    · rfl
    · exact ih (i + 1) x hx t

end Entries

/-! The part -/

section Part
variable {s : State}

theorem repliesQueued_setBoard {b : BoardNo} {e : Board} (h : ∀ b, RepliesQueued (s.board b)) (he : RepliesQueued e) :
    ∀ c, RepliesQueued ((s.setBoard b e).board c) := fun c => by
  rw [State.board_setBoard]
  split
  · exact he
  · exact h c

/-- The hold timers alone are written. -/
theorem repliesQueued_timers {t : State} (h : ∀ b, RepliesQueued (s.board b))
    (read : ∀ b, t.board b = { s.board b with holdTimer := none }) : ∀ b, RepliesQueued (t.board b) := fun b => by
  rw [read b]
  exact (h b).same rfl rfl

theorem repliesQueued_memberLeft (h : ∀ b, RepliesQueued (s.board b)) (b : BoardNo) (kind : Option FaultKind) :
    ∀ c, RepliesQueued ((s.memberLeft b kind).board c) := fun c => by
  rcases s.board_memberLeft b c kind with k | k
  · rw [k]
    exact h c
  · rw [k]
    exact (h c).same rfl rfl

theorem repliesQueued_faultLinked (h : ∀ b, RepliesQueued (s.board b)) (b : BoardNo) (kind : FaultKind) :
    ∀ c, RepliesQueued ((s.faultLinked b kind).board c) := by
  have clear : RepliesQueued ((s.board b).faulted kind) :=
    repliesQueued_clear (fun t => by simp [Board.faulted, Board.leaveLinked, Board.slot]) rfl
  have gone : ∀ c, RepliesQueued (((s.setBoard b ((s.board b).faulted kind)).raise (.boardFault b)).board c) :=
    repliesQueued_setBoard h clear
  unfold State.faultLinked
  dsimp only
  split
  · exact repliesQueued_memberLeft gone b _
  · exact gone

theorem repliesQueued_dropLinked (h : ∀ b, RepliesQueued (s.board b)) (b : BoardNo) :
    ∀ c, RepliesQueued ((s.dropLinked b).board c) := by
  have clear : RepliesQueued ((s.board b).leaveLinked .down) :=
    repliesQueued_clear (fun t => by simp [Board.leaveLinked, Board.slot]) rfl
  have gone : ∀ c, RepliesQueued (((s.setBoard b ((s.board b).leaveLinked .down)).raise (.linkDown b)).board c) :=
    repliesQueued_setBoard h clear
  unfold State.dropLinked
  dsimp only
  split
  · exact repliesQueued_memberLeft gone b _
  · exact gone

/-- A set and its notices join the queues behind what stands there (R82, R147). -/
theorem repliesQueued_set (h : ∀ b, RepliesQueued (s.board b)) (kind : SetKind) (time : Nat)
    (f : BoardNo → List (DomainNo × Level)) (l : List (Notice × BoardSet)) :
    ∀ b, RepliesQueued (((s.deliver kind time f).queueNotices l).board b) := fun b => by
  have delivered : RepliesQueued ((s.deliver kind time f).board b) := by
    rw [State.board_deliver]
    split
    · unfold Board.receiveCopy
      dsimp only
      split <;> exact (h b).of_queue rfl rfl (numberParts_occupies _ _ _ _ _)
    · exact h b
  rw [State.board_queueNotices]
  generalize (s.deliver kind time f).board b = x at delivered
  split
  · refine delivered.of_queue rfl rfl fun y hy t => ?_
    obtain ⟨n, _, rfl⟩ := List.mem_map.mp hy
    rfl
  · exact delivered

theorem repliesQueued_of_boards {t : State} (h : ∀ b, RepliesQueued (s.board b)) (boards : t.boards = s.boards) :
    ∀ b, RepliesQueued (t.board b) := fun b => by
  rw [State.board_of_boards boards b]
  exact h b

theorem repliesQueued_enterDraining (h : ∀ b, RepliesQueued (s.board b)) (cause : StopCause) (x : Option BoardNo)
    (d : Option DomainNo) (code : Option Byte) : ∀ b, RepliesQueued ((s.enterDraining cause x d code).board b) :=
  repliesQueued_timers h (s.board_enterDraining cause x d code)

theorem repliesQueued_emptyStop (h : ∀ b, RepliesQueued (s.board b)) : ∀ b, RepliesQueued (s.emptyStop.board b) := by
  unfold State.emptyStop
  split
  · exact repliesQueued_enterDraining h _ _ _ _
  · exact h

theorem repliesQueued_budgetStop (h : ∀ b, RepliesQueued (s.board b)) : ∀ b, RepliesQueued (s.budgetStop.board b) := by
  unfold State.budgetStop
  split
  · rename_i n _
    have spent : ∀ b, RepliesQueued (({ s with budget := .sets (n - 1) } : State).board b) := h
    dsimp only
    split
    · exact repliesQueued_enterDraining spent _ _ _ _
    · exact spent
  · exact h
  · exact h

theorem repliesQueued_breakpointStop (h : ∀ b, RepliesQueued (s.board b)) (l : List DomainNo) :
    ∀ b, RepliesQueued ((s.breakpointStop l).board b) := by
  unfold State.breakpointStop
  split
  · exact h
  · exact repliesQueued_enterDraining h _ _ _ _

theorem repliesQueued_advanceAt (h : ∀ b, RepliesQueued (s.board b)) (t : Nat) :
    ∀ b, RepliesQueued ((s.advanceAt t).board b) := by
  unfold State.advanceAt
  split
  · exact repliesQueued_enterDraining h _ _ _ _
  · split
    · exact repliesQueued_enterDraining h _ _ _ _
    · have outside := s.processGroup_outside t
      unfold State.SameOutside at outside
      have boards : ((s.processGroup t).state.stampSet t).boards = s.boards := by
        simp only [State.stampSet]
        rw [outside]
      exact repliesQueued_emptyStop (repliesQueued_budgetStop (repliesQueued_breakpointStop
        (repliesQueued_set (repliesQueued_of_boards h boards) _ _ _ _) _))

/-- Every move keeps the replies queued, in a run that is settled. -/
theorem repliesQueued_move {t : State} (settled : RunSettled s) (h : ∀ b, RepliesQueued (s.board b)) (m : Move s t) :
    ∀ b, RepliesQueued (t.board b) := by
  cases m with
  | same t same _ =>
    unfold State.SameCore at same
    rw [same]
    exact h
  | passTo instant => exact h
  | escalation n _ => exact h
  | cabinet k e _ _ => exact h
  | mask m _ => exact h
  | powerOn phase =>
    intro b
    rw [State.board_powerOnValues]
    exact repliesQueued_clear (fun t => by simp [Board.slot, Board.powerOn]) rfl
  | softReset phase =>
    intro b
    rw [State.board_softResetValues]
    exact repliesQueued_clear (fun t => by simp [Board.slot, Board.powerOn]) rfl
  | boards v moves => exact fun b => (h b).moves (settled.boards b) (moves b)
  | fault b kind _ => exact repliesQueued_faultLinked h b kind
  | holdExpired b _ =>
    have left : ∀ c, RepliesQueued ((s.modifyBoard b fun e => { e with timedOut := e.held }).board c) :=
      repliesQueued_setBoard h ((h b).same rfl rfl)
    exact repliesQueued_faultLinked left b _
  | drop b _ => exact repliesQueued_dropLinked h b
  | ack b _ _ _ =>
    have taken : RepliesQueued ((s.board b).takeAck s.clock) := by
      unfold Board.takeAck
      dsimp only
      split <;> exact (h b).same rfl rfl
    exact repliesQueued_of_boards (repliesQueued_setBoard h taken) (State.completeDraining_boards _)
  | drain cause b d code _ => exact repliesQueued_enterDraining h cause b d code
  | halt cause b code => exact repliesQueued_timers h (s.board_enterHalted cause b code)
  | startRun budget _ _ _ =>
    rw [State.startRun_eq]
    refine repliesQueued_emptyStop fun b => ?_
    rw [State.board_started]
    obtain ⟨timer, form⟩ := (s.board b).armed_eq s.clock
    rw [form]
    exact (h b).same rfl rfl
  | resync _ _ => exact repliesQueued_enterDraining (repliesQueued_set (s := { s with seq := s.seq + 1 }) h _ _ _ []) _ _ _ _
  | rewind _ _ =>
    have outside := s.rewindRecords_outside
    unfold State.SameOutside at outside
    have boards : ({ s.rewindRecords with seq := s.rewindRecords.seq + 1 } : State).boards = s.boards := by
      dsimp only
      rw [outside]
    exact repliesQueued_enterDraining (repliesQueued_set (repliesQueued_of_boards h boards) _ _ _ _) _ _ _ _
  | advance x rest _ _ => exact repliesQueued_advanceAt h x.time
  | clear _ _ => exact h
  | enroll b _ _ => exact repliesQueued_setBoard h ((h b).same rfl rfl)
  | expel b _ =>
    have left : ∀ c, RepliesQueued ((s.modifyBoard b Board.expelled).board c) :=
      repliesQueued_setBoard h ((h b).same rfl rfl)
    exact repliesQueued_of_boards left (State.mapDomains_boards _ _)
  | take k who params =>
    have writes := k.take_writes who params s
    rw [writes.state]
    exact h

end Part

/-- Settles O55, by `repliesQueued_move` on the moves of the step, with O54's invariant beside it. -/
theorem everyStepKeepsRepliesQueued : Obligations.EveryStepKeepsRepliesQueued := by
  intro s t settled h e
  refine (step_keeps (P := fun s => RunSettled s ∧ ∀ b, RepliesQueued (s.board b)) (fun s t k same => ?_)
    (fun s t k m => ⟨RunSettled.move s t k.1 m, repliesQueued_move k.1 k.2 m⟩) ⟨settled, h⟩ e).2
  refine ⟨k.1.sameCore same, ?_⟩
  unfold State.SameCore at same
  rw [same]
  exact k.2

end Sys2Proof.Safety
end

section
/-! SUPPORT. The queue, reset, initialisation and the HALT_N line: the statements O1, O4, O5, O6, O7 and O52. -/

namespace Sys2Proof.Machine

open Sys2Proof.Safety

@[simp] theorem State.board_reset (b : BoardNo) : State.reset.board b = Board.powerOn := by
  simp [State.board, State.reset]

@[simp] theorem State.domain_reset (d : DomainNo) : State.reset.domain d = none := by
  simp [State.domain, State.reset]

@[simp] theorem Board.slot_powerOn (t : Tag) : Board.powerOn.slot t = .empty := by
  simp [Board.slot, Board.powerOn]

/-- Settles O1: the queue's front is what `step` reads. -/
theorem stepTakesFrontCommand : Obligations.StepTakesFrontCommand := fun _ _ _ => rfl

/-- Settles O4, by reading the reset state's fields. -/
theorem resetStateValues : Obligations.ResetStateValues := by
  refine ⟨rfl, rfl, rfl, State.domain_reset, rfl, rfl, rfl, rfl, rfl, rfl, rfl, rfl, rfl, rfl, rfl, rfl, rfl,
    fun b => ?_⟩
  rw [State.board_reset]
  exact ⟨rfl, rfl, rfl, rfl, rfl, rfl, rfl, rfl, rfl, rfl, rfl, rfl, rfl, rfl, rfl, rfl, rfl, Board.slot_powerOn 0,
    Board.slot_powerOn 1⟩

/-! Reset -/

/-- Settles O5: each reset writes the reset values over all but what it keeps. -/
theorem resetsGiveTheResetValues : Obligations.ResetsGiveTheResetValues := by
  refine ⟨fun s => ?_, fun s status => ?_⟩
  · cases frame : s.frame <;>
      simp only [exec, execPowerOnReset, State.powerOnValues, frame, Option.map, reduceCtorEq, if_true, if_false] <;> rfl
  · simp only [exec, execSoftReset, if_true, if_neg status]
    rfl

/-- Initialisation that completes with HALT_N negated raises RESET_DONE and starts the links (R89, R115). -/
theorem exec_initialisation_completes {s : State} {t : Nat} (phase : s.phase = .initialising t) :
    exec .resetInitialisationComplete s = .next (s.passTo t).completeInitialisation := by
  simp only [exec, execResetInitialisationComplete, phase]

theorem State.watchReceivers_eq (s : State) : s.watchReceivers = { s with
    boards := Vector.ofFn fun b =>
      if (s.board b).signal = true ∧ (s.board b).link = .down then
        { s.board b with link := .training ⟨s.filterK, 1, [], s.clock⟩ }
      else s.board b } := rfl

/-- The part in service with RESET_DONE pending (R89, R181). -/
def State.inService (s : State) : State := { s with
  phase := .ready
  events := { s.events with resetDone := true } }

theorem State.completeInitialisation_negated {s : State} (halt : s.haltAsserted = false) :
    s.completeInitialisation = s.inService.watchReceivers := by
  have off : ¬ s.inService.haltAsserted = true := by simp [State.inService, halt]
  exact congrArg State.watchReceivers (if_neg off)

theorem State.completeInitialisation_asserted {s : State} (halt : s.haltAsserted = true) :
    s.completeInitialisation = s.inService.takeHaltLine.watchReceivers :=
  congrArg State.watchReceivers (if_pos halt)

/-- An assertion of HALT_N that finds the cabinet running on halts it (R103). -/
theorem State.takeHaltLine_halts {s : State} (run : s.runState ≠ .halted) : s.takeHaltLine = { s with
    runState := .halted
    stopRecord := ⟨.haltLine, none, none, none, s.time, s.seq⟩
    boards := holdTimersOff s
    events := { s.events with haltLine := true, halted := true } } := by
  rw [State.takeHaltLine, if_neg run, State.enterHalted_eq]
  rfl

theorem State.takeHaltLine_halted {s : State} (run : s.runState = .halted) :
    s.takeHaltLine = { s with events := { s.events with haltLine := true } } := by
  rw [State.takeHaltLine, if_pos run]
  rfl

/-- The links begin to watch on a cabinet that HALT_N has halted (R103, R115). -/
theorem State.watchReceivers_takeHaltLine {s : State} (run : s.runState ≠ .halted) :
    s.takeHaltLine.watchReceivers = { s with
      runState := .halted
      stopRecord := ⟨.haltLine, none, none, none, s.time, s.seq⟩
      events := { s.events with haltLine := true, halted := true }
      boards := Vector.ofFn fun b =>
        if (s.board b).signal = true ∧ (s.board b).link = .down then
          { s.board b with link := .training ⟨s.filterK, 1, [], s.clock⟩, holdTimer := none }
        else { s.board b with holdTimer := none } } := by
  rw [State.takeHaltLine_halts run, State.watchReceivers_eq]
  refine congrArg (fun v => ({ s with
    runState := .halted
    stopRecord := ⟨.haltLine, none, none, none, s.time, s.seq⟩
    events := { s.events with haltLine := true, halted := true }
    boards := v } : State)) (boards_ext fun b => ?_)
  simp only [State.board, holdTimersOff, Fin.getElem_fin, Vector.getElem_ofFn]
  by_cases trains : s.boards[b.val].signal = true ∧ s.boards[b.val].link = .down
  · simp only [trains, and_self, if_true]
  · simp only [trains, if_false]

/-- Settles O6: one branch of each of the two commands for each phase. -/
theorem initialisationRunsFromResetToService : Obligations.InitialisationRunsFromResetToService := by
  refine fun s t => ⟨fun phase => ?_, fun phase halt => ?_, fun phase halt run => ?_, fun phase => ?_, fun phase => ?_⟩
  · simp only [exec, execResetNNegated, phase]
    rfl
  · rw [exec_initialisation_completes phase, State.completeInitialisation_negated (s := s.passTo t) halt, State.watchReceivers_eq]
    rfl
  · rw [exec_initialisation_completes phase, State.completeInitialisation_asserted (s := s.passTo t) halt,
      State.watchReceivers_takeHaltLine (s := (s.passTo t).inService) (run.symm ▸ nofun)]
    rfl
  · simp only [exec, execResetNNegated]
    split
    · rename_i held
      exact absurd held phase
    · rfl
    · rfl
  · simp only [exec, execResetInitialisationComplete]
    split
    · rename_i deadline running
      exact absurd running (phase deadline)
    · rfl
    · rfl

theorem exec_haltNAsserted_ready {s : State} (negated : s.haltAsserted = false) (phase : s.phase = .ready) :
    exec .haltNAsserted s = .next ({ s with haltAsserted := true } : State).takeHaltLine := by
  have ready : ({ s with haltAsserted := true } : State).isReady = true := decide_eq_true phase
  have off : ¬ s.haltAsserted = true := by simp [negated]
  exact congrArg Host.Outcome.next ((if_neg off).trans (if_pos ready))

/-- Settles O7, by the level of the line, the phase and the run state. -/
theorem haltLineHaltsTheCabinet : Obligations.HaltLineHaltsTheCabinet := by
  refine fun s => ⟨fun negated phase run => ?_, fun negated phase run => ?_, fun negated phase => ?_, fun asserted => ?_, rfl⟩
  · rw [exec_haltNAsserted_ready negated phase, State.takeHaltLine_halts (s := { s with haltAsserted := true }) run]
    rfl
  · rw [exec_haltNAsserted_ready negated phase, State.takeHaltLine_halted (s := { s with haltAsserted := true }) run]
  · have away : ¬ ({ s with haltAsserted := true } : State).isReady = true := by simpa [State.isReady] using phase
    have off : ¬ s.haltAsserted = true := by simp [negated]
    exact congrArg Host.Outcome.next ((if_neg off).trans (if_neg away))
  · exact congrArg Host.Outcome.next (if_pos asserted)

/-! The invariants at reset -/

theorem boardInRange_powerOn : BoardInRange Board.powerOn where
  window := by decide
  holdLimit := by decide
  ackBase := by decide
  roundTrip := by decide
  ackWait := by decide
  training := nofun

theorem inRange_reset : InRange State.reset where
  filterK := .inr (.inl rfl)
  escalationE := by decide
  escalation := by decide
  mask := by decide
  listCursor := by decide
  furtherFaults := by decide
  time := by decide
  budget := trivial
  stopTime := by decide
  probes := fun b t training => by
    rw [State.board_reset] at training
    exact nomatch training
  boards := fun b => by
    rw [State.board_reset]
    exact boardInRange_powerOn

theorem runSettled_reset : RunSettled State.reset where
  windows := fun b => by
    rw [State.board_reset]
    decide
  boards := fun b => by
    rw [State.board_reset]
    exact boardSettled_reset
  stopped := fun _ b => by
    rw [State.board_reset]
    rfl
  draining := nofun
  running := nofun
  furtherFaults := fun _ => rfl

theorem repliesQueued_reset (b : BoardNo) : RepliesQueued (State.reset.board b) := by
  rw [State.board_reset]
  exact repliesQueued_clear Board.slot_powerOn rfl

theorem quiet_reset : Quiet State.reset := fun _ =>
  { frame := ⟨nofun, nofun⟩
    slot := rfl
    boards := fun b => by
      rw [State.board_reset]
      exact ⟨rfl, rfl, Board.slot_powerOn 0, Board.slot_powerOn 1, rfl, rfl⟩
    records := State.domain_reset
    calendar := rfl
    runState := rfl
    events := rfl }

/-- A table of FREE records satisfies the table's laws. -/
theorem recordsOk_free {s : State} (free : ∀ d, s.domain d = none) : RecordsOk s where
  valid := fun d r h => by rw [free d] at h; exact nomatch h
  labels := fun d e r q h => by rw [free d] at h; exact nomatch h
  parent := fun d r c h => by rw [free d] at h; exact nomatch h
  child := fun d r p c h => by rw [free d] at h; exact nomatch h
  gap := fun d r c q p h => by rw [free d] at h; exact nomatch h
  pendingGap := fun d r c q period high h => by rw [free d] at h; exact nomatch h
  coupled := fun d r c q h => by rw [free d] at h; exact nomatch h
  kept := fun d r h => by rw [free d] at h; exact nomatch h

theorem calendarAhead_empty {s : State} (empty : s.calendar = []) (time : s.time < 2 ^ 48) : CalendarAhead s where
  sorted := by rw [empty]; exact .nil
  ahead := by rw [empty]; exact nofun
  time := time

theorem calendarExact_free {s : State} (free : ∀ d, s.domain d = none) (empty : s.calendar = [])
    (time : s.time < 2 ^ 48) : CalendarExact s where
  sorted := by rw [empty]; exact .nil
  unique := by rw [empty]; exact nofun
  active := fun d r h => by rw [free d] at h; exact nomatch h
  owned := by rw [empty]; exact nofun
  ahead := by rw [empty]; exact nofun
  time := time
  range := by rw [empty]; exact nofun
  near := by rw [empty]; exact nofun
  phase := by rw [empty]; exact nofun
  parked := fun d r h => by rw [free d] at h; exact nomatch h
  pairs := by rw [empty]; exact nofun

/-- Settles O52, one invariant after another. -/
theorem resetSatisfiesTheInvariants : Obligations.ResetSatisfiesTheInvariants :=
  ⟨inRange_reset, runSettled_reset, repliesQueued_reset, quiet_reset, recordsOk_free State.domain_reset,
    calendarAhead_empty rfl (by decide), calendarExact_free State.domain_reset rfl (by decide)⟩

end Sys2Proof.Machine
end

section
/-! SUPPORT. Service frames, from the wires to the frame's end: the statements O3, O8, O9 and O51. -/

namespace Sys2Proof.Machine

open Sys2Proof.Safety

/-! The command a frame is -/

/-- A service command acts as the frame that carries its code, whatever row it is given under (R171, R175). -/
theorem exec_eq_takeServiceFrame {c : Instr} {code : Byte} {payload : List Byte} (s : State)
    (e : encodeServiceFrame c = some (code :: payload)) : exec c s = takeServiceFrame code payload s := by
  cases c <;> simp only [encodeServiceFrame, Option.some.injEq, List.cons.injEq, reduceCtorEq] at e
  case recordCommandEntersSlot => obtain ⟨rfl, rfl⟩ := e; rfl
  case unknownCommandCode code' _ =>
    cases code' with
    | none => simp at e
    | some x =>
      simp only [Option.some.injEq, List.cons.injEq] at e
      obtain ⟨rfl, rfl⟩ := e
      rfl
  case readReply clocked =>
    obtain ⟨rfl, rfl⟩ := e
    have taken : takeServiceFrame Codes.readReply (List.replicate clocked 0#8) s =
      execReadReply (List.replicate clocked 0#8).length s := rfl
    rw [taken, List.length_replicate]
    rfl
  all_goals obtain ⟨rfl, rfl⟩ := e; rfl

/-- Only the frame without a whole command byte has no bytes (R171). -/
theorem encodeServiceFrame_nil {c : Instr} (e : encodeServiceFrame c = some []) :
    ∃ payload, c = .unknownCommandCode none payload := by
  cases c <;> simp only [encodeServiceFrame, Option.some.injEq, reduceCtorEq] at e
  case unknownCommandCode code payload =>
    cases code with
    | none => exact ⟨payload, rfl⟩
    | some x => simp at e

/-! What a command leaves of the port and the queue -/

/-- The frame that is open, the queue and the phase stand. -/
structure State.SamePort (s t : State) : Prop where
  frame : t.frame = s.frame
  pending : t.pending = s.pending
  phase : t.phase = s.phase

section Stops
variable (s : State)

theorem State.SamePort.refl : s.SamePort s := ⟨rfl, rfl, rfl⟩

theorem State.SamePort.trans {s t u : State} (h : s.SamePort t) (k : t.SamePort u) : s.SamePort u :=
  ⟨k.frame.trans h.frame, k.pending.trans h.pending, k.phase.trans h.phase⟩

theorem State.samePort_enterDraining (cause : StopCause) (x : Option BoardNo) (d : Option DomainNo)
    (code : Option Byte) : s.SamePort (s.enterDraining cause x d code) :=
  ⟨State.enterDraining_frame .., State.enterDraining_pending .., State.enterDraining_phase ..⟩

theorem State.samePort_emptyStop : s.SamePort s.emptyStop := by
  unfold State.emptyStop
  split
  · exact s.samePort_enterDraining ..
  · exact ⟨rfl, rfl, rfl⟩

theorem State.samePort_budgetStop : s.SamePort s.budgetStop := by
  unfold State.budgetStop
  split
  · rename_i n _
    have spent : s.SamePort { s with budget := .sets (n - 1) } := ⟨rfl, rfl, rfl⟩
    dsimp only
    split
    · exact spent.trans (State.samePort_enterDraining _ _ _ _ _)
    · exact spent
  all_goals exact ⟨rfl, rfl, rfl⟩

theorem State.samePort_breakpointStop (l : List DomainNo) : s.SamePort (s.breakpointStop l) := by
  cases l with
  | nil => exact ⟨rfl, rfl, rfl⟩
  | cons d _ => exact s.samePort_enterDraining ..

theorem State.samePort_startRun (b : Budget) : s.SamePort (s.startRun b) := by
  rw [State.startRun_eq]
  exact State.SamePort.trans (t := s.started b) ⟨rfl, rfl, rfl⟩ (State.samePort_emptyStop _)

theorem State.samePort_outside {s t : State} (outside : s.SameOutside t) : s.SamePort t := by
  unfold State.SameOutside at outside
  rw [outside]
  exact ⟨rfl, rfl, rfl⟩

theorem State.samePort_issueLevelSet : s.SamePort s.issueLevelSet :=
  ⟨State.deliver_frame .., State.deliver_pending .., State.deliver_phase ..⟩

theorem State.samePort_queueNotices (l : List (Notice × BoardSet)) : s.SamePort (s.queueNotices l) :=
  ⟨State.queueNotices_frame .., State.queueNotices_pending .., State.queueNotices_phase ..⟩

theorem State.samePort_resync : s.SamePort s.resync :=
  s.samePort_issueLevelSet.trans (State.samePort_enterDraining ..)

theorem State.samePort_rewind : s.SamePort s.rewind := by
  have timed : s.SamePort { s with time := 0 } := ⟨rfl, rfl, rfl⟩
  have records : s.SamePort s.rewindRecords := timed.trans (State.samePort_outside s.rewindRecords_outside)
  exact ((records.trans (State.samePort_issueLevelSet _)).trans (State.samePort_queueNotices _ _)).trans
    (State.samePort_enterDraining ..)

theorem State.samePort_issueSet (t : Nat) : s.SamePort (State.issueSet (s.processGroup t) t) := by
  have processed := State.samePort_outside (s.processGroup_outside t)
  refine (processed.trans (u := ((s.processGroup t).state.stampSet t).deliver .edge t (entriesOf (s.processGroup t).entries))
    ⟨?_, ?_, ?_⟩).trans (State.samePort_queueNotices _ _)
  · rw [State.deliver_frame, State.stampSet_frame]
  · rw [State.deliver_pending, State.stampSet_pending]
  · rw [State.deliver_phase, State.stampSet_phase]

theorem State.samePort_advanceAt (t : Nat) : s.SamePort (s.advanceAt t) := by
  unfold State.advanceAt
  split
  · exact s.samePort_enterDraining ..
  · split
    · exact s.samePort_enterDraining ..
    · exact (((s.samePort_issueSet t).trans (State.samePort_breakpointStop _ _)).trans
        (State.samePort_budgetStop _)).trans (State.samePort_emptyStop _)

end Stops

section Answers
variable {s : State} {payload : List Byte}

theorem checkRun_port (s : State) (b : Budget) : s.SamePort (s.checkRun b).state := by
  have started := s.samePort_startRun b
  unfold State.checkRun
  split
  · exact .refl s
  · split
    · exact .refl s
    · cases b with
      | unlimited => exact started
      | sets n => exact started
      | untilTime l =>
        dsimp only
        split
        · exact started
        · exact .refl s

theorem answerRun_port : s.SamePort (answerRun payload s).state := by
  unfold answerRun
  cases parseRun payload with
  | none => exact .refl s
  | some b => exact checkRun_port s b

theorem answerStop_port : s.SamePort (answerStop payload s).state := by
  unfold answerStop
  split
  · have drained := s.samePort_enterDraining .stopCommand none none none
    rw [State.answer_state]
    exact drained
  · exact .refl s

theorem answerClear_port : s.SamePort (answerClear payload s).state := by
  unfold answerClear
  split
  · split <;> exact ⟨rfl, rfl, rfl⟩
  · exact .refl s

theorem levelSetCommand_port {t : State} (h : s.SamePort t) : s.SamePort (s.levelSetCommand t).state := by
  unfold State.levelSetCommand
  split
  · exact .refl s
  · split
    · exact .refl s
    · exact h

theorem answerAdmit_port : s.SamePort (answerAdmit payload s).state := by
  unfold answerAdmit
  cases parseBoard payload with
  | none => exact .refl s
  | some b =>
    dsimp only
    split
    · exact .refl s
    · split
      · exact .refl s
      · split <;> exact ⟨rfl, rfl, rfl⟩

theorem answerExpel_port : s.SamePort (answerExpel payload s).state := by
  unfold answerExpel
  cases parseBoard payload with
  | none => exact .refl s
  | some b =>
    dsimp only
    split
    · exact .refl s
    · split
      · exact .refl s
      · rw [State.answer_state]
        refine ⟨?_, ?_, ?_⟩
        · rw [State.mapDomains_frame, State.modifyBoard_frame]
        · rw [State.mapDomains_pending, State.modifyBoard_pending]
        · rw [State.mapDomains_phase, State.modifyBoard_phase]

theorem answerRetrain_port : s.SamePort (answerRetrain payload s).state := by
  unfold answerRetrain
  cases parseBoard payload with
  | none => exact .refl s
  | some b =>
    dsimp only
    split
    · rw [State.answer_state, State.retrain]
      split <;> exact ⟨rfl, rfl, rfl⟩
    all_goals exact .refl s

theorem answerSetBoard_port : s.SamePort (answerSetBoard payload s).state := by
  unfold answerSetBoard
  cases parseSetBoard payload with
  | none => exact .refl s
  | some q =>
    dsimp only
    split
    · exact .refl s
    · split <;> exact ⟨rfl, rfl, rfl⟩

theorem answerReadBoard_port : s.SamePort (answerReadBoard payload s).state := by
  unfold answerReadBoard
  cases parseBoard payload <;> exact ⟨rfl, rfl, rfl⟩

theorem answerSetCabinet_port : s.SamePort (answerSetCabinet payload s).state := by
  unfold answerSetCabinet
  cases parseSetCabinet payload <;> exact ⟨rfl, rfl, rfl⟩

theorem answerSetMask_port : s.SamePort (answerSetMask payload s).state := by
  unfold answerSetMask
  cases parseSetMask payload <;> exact ⟨rfl, rfl, rfl⟩

end Answers

/-- A command that answers without touching the port ends its frame (R170). -/
theorem State.command_ends {s : State} {code : Byte} {length : Nat} {payload : List Byte}
    {body : List Byte → State → Answer} (h : ∀ u : State, u.SamePort (body payload u).state) :
    (s.command code length payload body).frame = none ∧ (s.command code length payload body).phase = s.phase := by
  have ended := h (s.endFiller payload.length)
  unfold State.command
  dsimp only
  split
  · split
    · exact ⟨ended.frame, ended.phase⟩
    · exact ⟨rfl, rfl⟩
  · exact ⟨rfl, rfl⟩

theorem execSoftReset_frame {s : State} {payload : List Byte} :
    ∃ t, execSoftReset payload s = .next t ∧ t.frame = none := by
  refine ⟨_, rfl, ?_⟩
  dsimp only
  split
  · split <;> rfl
  · split <;> rfl

theorem execReadReply_ends {s : State} {clocked : Nat} :
    ∃ t, execReadReply clocked s = .next t ∧ t.frame = none ∧ t.phase = s.phase := by
  refine ⟨_, rfl, ?_⟩
  dsimp only
  split <;> exact ⟨rfl, rfl⟩

/-- Every frame ends with SCS_N negated (R170), and only a SOFT RESET ends a phase. -/
theorem takeServiceFrame_ends (code : Byte) (payload : List Byte) (s : State) :
    ∃ t, takeServiceFrame code payload s = .next t ∧ t.frame = none ∧ (code ≠ Codes.softReset → t.phase = s.phase) := by
  have ends : ∀ {r : Result}, (∃ t, r = .next t ∧ t.frame = none ∧ t.phase = s.phase) →
      ∃ t, r = .next t ∧ t.frame = none ∧ (code ≠ Codes.softReset → t.phase = s.phase) := fun ⟨t, form, frame, phase⟩ =>
    ⟨t, form, frame, fun _ => phase⟩
  apply takeServiceFrame_cases
    (P := fun r => ∃ t, r = .next t ∧ t.frame = none ∧ (code ≠ Codes.softReset → t.phase = s.phase))
  case record =>
    refine fun k _ => ends ⟨_, rfl, ?_⟩
    unfold State.recordFrame
    dsimp only
    split
    · split <;> exact ⟨rfl, rfl⟩
    · exact ⟨rfl, rfl⟩
  case unknown =>
    refine fun _ => ends ⟨_, rfl, ?_⟩
    unfold State.unknownFrame
    dsimp only
    split <;> exact ⟨rfl, rfl⟩
  case run => exact fun _ => ends ⟨_, rfl, State.command_ends fun _ => answerRun_port⟩
  case step => exact fun _ => ends ⟨_, rfl, State.command_ends fun u => checkRun_port u _⟩
  case stop => exact fun _ => ends ⟨_, rfl, State.command_ends fun _ => answerStop_port⟩
  case clear => exact fun _ => ends ⟨_, rfl, State.command_ends fun _ => answerClear_port⟩
  case rewind => exact fun _ => ends ⟨_, rfl, State.command_ends fun u => levelSetCommand_port u.samePort_rewind⟩
  case resync => exact fun _ => ends ⟨_, rfl, State.command_ends fun u => levelSetCommand_port u.samePort_resync⟩
  case readRun => exact fun _ => ends ⟨_, rfl, State.command_ends .refl⟩
  case admitBoard => exact fun _ => ends ⟨_, rfl, State.command_ends fun _ => answerAdmit_port⟩
  case expel => exact fun _ => ends ⟨_, rfl, State.command_ends fun _ => answerExpel_port⟩
  case retrain => exact fun _ => ends ⟨_, rfl, State.command_ends fun _ => answerRetrain_port⟩
  case setBoard => exact fun _ => ends ⟨_, rfl, State.command_ends fun _ => answerSetBoard_port⟩
  case readBoard => exact fun _ => ends ⟨_, rfl, State.command_ends fun _ => answerReadBoard_port⟩
  case setCabinet => exact fun _ => ends ⟨_, rfl, State.command_ends fun _ => answerSetCabinet_port⟩
  case identify => exact fun _ => ends ⟨_, rfl, State.command_ends .refl⟩
  case softReset =>
    intro soft
    obtain ⟨t, form, frame⟩ := execSoftReset_frame (s := s) (payload := payload)
    exact ⟨t, form, frame, fun other => absurd soft other⟩
  case readEvents => exact fun _ => ends ⟨_, rfl, State.command_ends fun _ => ⟨rfl, rfl, rfl⟩⟩
  case setMask => exact fun _ => ends ⟨_, rfl, State.command_ends fun _ => answerSetMask_port⟩
  case readReply => exact fun _ => ends execReadReply_ends

/-- Every frame ends with SCS_N negated (R170). -/
theorem takeServiceFrame_frame (code : Byte) (payload : List Byte) (s : State) :
    ∃ t, takeServiceFrame code payload s = .next t ∧ t.frame = none := by
  obtain ⟨t, form, frame, _⟩ := takeServiceFrame_ends code payload s
  exact ⟨t, form, frame⟩

/-- A frame that is not READY is not taken, but for a SOFT RESET of the right length (R171, R172, R174, R177). -/
theorem takeServiceFrame_notReady {code : Byte} {payload : List Byte} {s : State} (status : s.frameStatus ≠ .ready)
    (soft : code = Codes.softReset → payload = [] → s.frameStatus = .notReady) :
    takeServiceFrame code payload s = .next (s.endFiller payload.length) := by
  apply takeServiceFrame_cases (P := fun r => r = .next (s.endFiller payload.length))
  case record =>
    intro k _
    rw [State.recordFrame, if_neg status]
  case unknown =>
    intro _
    rw [State.unknownFrame, if_neg status]
  case softReset =>
    intro code
    simp only [execSoftReset, if_neg status]
    split
    · rename_i empty
      rw [if_pos (soft code empty)]
    · rfl
  case readReply =>
    intro _
    rw [execReadReply, if_neg status]
  all_goals exact fun _ => congrArg Host.Outcome.next (State.command_notReady status)

/-! SDO -/

theorem Bytes.length_bits (l : List Byte) : (Bytes.bits l).length = 8 * l.length := by
  induction l with
  | nil => rfl
  | cons x xs ih =>
    have head : (Bytes.bits (x :: xs)).length = 8 + (Bytes.bits xs).length := by
      simp [Bytes.bits, Bytes.bitsOf]
      omega
    rw [head, ih, List.length_cons]
    omega

theorem Bytes.getElem_bitsOf (x : Byte) {i : Nat} (h : i < 8) : (Bytes.bitsOf x)[i]? = some (x.getLsbD (7 - i)) := by
  match i, h with
  | 0, _ | 1, _ | 2, _ | 3, _ | 4, _ | 5, _ | 6, _ | 7, _ => rfl

/-- The bits of a byte travel most-significant bit first, behind those of the bytes before it (R170). -/
theorem Bytes.getElem_bits {l : List Byte} {n : Nat} {x : Byte} (h : l[n]? = some x) {i : Nat} (hi : i < 8) :
    (Bytes.bits l)[8 * n + i]? = some (x.getLsbD (7 - i)) := by
  induction l generalizing n with
  | nil => simp at h
  | cons y ys ih =>
    have split : Bytes.bits (y :: ys) = Bytes.bitsOf y ++ Bytes.bits ys := rfl
    have eight : (Bytes.bitsOf y).length = 8 := rfl
    rw [split]
    cases n with
    | zero =>
      obtain rfl : y = x := by simpa using h
      rw [List.getElem?_append_left (by omega), Nat.mul_zero, Nat.zero_add, Bytes.getElem_bitsOf y hi]
    | succ n =>
      have later := ih (n := n) (by simpa using h)
      rw [List.getElem?_append_right (by omega), eight]
      have place : 8 * (n + 1) + i - 8 = 8 * n + i := by omega
      rw [place, later]

/-- Settles O8: the port status, the frames that are not READY, the wires, and the short frame. -/
theorem theStatusByteDecidesTheFrame : Obligations.TheStatusByteDecidesTheFrame := by
  refine ⟨fun s => ⟨fun phase => ?_, fun code payload phase slot => ?_, fun phase slot => ?_⟩,
    fun s c bytes code payload status encoded form soft => ?_, fun s => ⟨fun frame => ?_, fun status frame => ?_, ?_, ?_⟩,
    fun s payload => ⟨rfl, fun bits short => ?_⟩⟩
  · have status : s.portStatus = .notReady := by
      unfold State.portStatus
      split
      · contradiction
      · rfl
      · rfl
    simp only [exec, execScsNAsserted, status, PortStatus.byte]
  · have status : s.portStatus = .busy := by simp only [State.portStatus, phase, slot]
    simp only [exec, execScsNAsserted, status, PortStatus.byte]
  · have status : s.portStatus = .ready := by
      simp only [State.portStatus, phase]
      split
      · rename_i held
        exact absurd held (slot _ _)
      · rfl
      · rfl
    simp only [exec, execScsNAsserted, status, PortStatus.byte]
  · subst form
    rw [exec_eq_takeServiceFrame s encoded, takeServiceFrame_notReady status soft]
    rfl
  · simp [State.sdoPin, State.sdoBits, frame]
  · have pin : s.sdoPin = some s.sdo := by simp [State.sdoPin, frame]
    exact ⟨pin, Bytes.bits s.sdo, by simp [State.sdoBits, pin], Bytes.length_bits _,
      fun n x byte i hi => Bytes.getElem_bits byte hi⟩
  · exact ⟨_, rfl, rfl⟩
  · intro c bytes encoded
    cases bytes with
    | nil =>
      obtain ⟨payload, rfl⟩ := encodeServiceFrame_nil encoded
      exact ⟨_, rfl, rfl, rfl⟩
    | cons code payload =>
      obtain ⟨t, taken, ended⟩ := takeServiceFrame_frame code payload s
      exact ⟨t, (exec_eq_takeServiceFrame s encoded).trans taken, ended, State.sdoPin_eq_none.mpr ended⟩
  · rw [decodeServiceBits, Bytes.ofBits_short short]
    rfl

/-! The service slot -/

/-- The lengths of the record commands, as R184's table gives them. -/
theorem recordKind_of_length {code : Byte} {n : Nat}
    (h : (code, n) ∈ [(0x01#8, 17), (0x02#8, 2), (0x03#8, 1), (0x04#8, 0), (0x05#8, 1), (0x06#8, 2), (0x07#8, 2),
      (0x08#8, 1), (0x09#8, 1), (0x0A#8, 9), (0x0B#8, 1), (0x0C#8, 1), (0x0D#8, 1), (0x0E#8, 6)]) :
    ∃ k, RecordKind.ofCode code = some k ∧ n = k.serviceLength := by
  have table : [((0x01#8 : Byte), 17), (0x02#8, 2), (0x03#8, 1), (0x04#8, 0), (0x05#8, 1), (0x06#8, 2), (0x07#8, 2),
      (0x08#8, 1), (0x09#8, 1), (0x0A#8, 9), (0x0B#8, 1), (0x0C#8, 1), (0x0D#8, 1), (0x0E#8, 6)] =
      RecordKind.all.map fun k => (k.code, k.serviceLength) := by decide
  rw [table] at h
  obtain ⟨k, _, form⟩ := List.mem_map.mp h
  obtain ⟨rfl, rfl⟩ := Prod.mk.injEq .. ▸ form
  exact ⟨k, by cases k <;> rfl, rfl⟩

/-- READ REPLY shifts out the snapshot and then filler (R174, R186). -/
theorem clockedOut_spec (n : Nat) (l : List Byte) :
    (clockedOut n l).length = n ∧ ∀ i, i < n → (clockedOut n l)[i]? = some (l.getD i 0x00#8) := by
  refine ⟨by simp [clockedOut], fun i hi => ?_⟩
  rw [clockedOut, List.getElem?_take_of_lt hi, List.getD_eq_getElem?_getD]
  by_cases inside : i < l.length
  · rw [List.getElem?_append_left inside, List.getElem?_eq_getElem inside]
    rfl
  · rw [List.getElem?_append_right (by omega), List.getElem?_replicate_of_lt (by omega),
      List.getElem?_eq_none (by omega)]
    rfl

/-- A service command with a wrong length, for any of the commands that answer at once (R171). -/
theorem exec_wrongLength {c : Instr} {s : State} {code : Byte} {length : Nat} {payload : List Byte}
    {body : List Byte → State → Answer} (form : exec c s = .next (s.command code length payload body))
    (h : s.frameStatus = .ready) (l : payload.length ≠ length) :
    exec c s = .next (answered s code .badParam [] payload.length) := by
  rw [form, State.command_wrongLength h l]

theorem exec_softReset_wrongLength {s : State} {payload : List Byte} (h : s.frameStatus = .ready)
    (l : payload.length ≠ 0) :
    exec (.softReset payload) s = .next (answered s 0x4F#8 .badParam [] payload.length) := by
  have full : payload ≠ [] := fun empty => l (by rw [empty]; rfl)
  simp only [exec, execSoftReset, if_neg full, if_pos h]
  exact congrArg Host.Outcome.next (State.putDone_endFiller h)

/-- Settles O9: the record commands, the wrong frames, and READ REPLY. -/
theorem theServiceSlotTakesCommandsAndGivesReplies : Obligations.TheServiceSlotTakesCommandsAndGivesReplies := by
  refine ⟨fun s code payload h lengths => ?_, fun s payload h => ⟨fun code unknown => ?_, fun code k known l => ?_,
    exec_wrongLength rfl h, exec_wrongLength rfl h, exec_wrongLength rfl h, fun c code row l => ?_,
    fun c code row l => ?_⟩, fun s clocked h => ⟨fun slot => ?_, fun code status data slot => ?_⟩⟩
  · obtain ⟨k, known, l⟩ := recordKind_of_length lengths
    rw [exec, execRecordCommandEntersSlot_of_kind known, State.recordFrame, if_pos h, if_pos l]
    simp only [State.endFiller, State.endFrame, h, PortStatus.byte]
  · rw [exec, execUnknownCommandCode_of_unknown unknown, State.unknownFrame, if_pos h]
    exact congrArg Host.Outcome.next (State.putDone_endFiller h)
  · rw [exec, execRecordCommandEntersSlot_of_kind known, State.recordFrame, if_pos h, if_neg l]
    exact congrArg Host.Outcome.next (State.putDone_endFiller h)
  · simp only [List.mem_cons, Prod.mk.injEq, List.not_mem_nil, or_false] at row
    rcases row with ⟨rfl, rfl⟩ | ⟨rfl, rfl⟩ | ⟨rfl, rfl⟩ | ⟨rfl, rfl⟩ | ⟨rfl, rfl⟩ <;> exact exec_wrongLength rfl h l
  · simp only [List.mem_cons, Prod.mk.injEq, List.not_mem_nil, or_false] at row
    rcases row with ⟨rfl, rfl⟩ | ⟨rfl, rfl⟩ | ⟨rfl, rfl⟩ | ⟨rfl, rfl⟩ | ⟨rfl, rfl⟩ | ⟨rfl, rfl⟩ | ⟨rfl, rfl⟩ |
      ⟨rfl, rfl⟩ | ⟨rfl, rfl⟩
    case inr.inr.inr.inr.inr.inr.inr.inl => exact exec_softReset_wrongLength h l
    all_goals exact exec_wrongLength rfl h l
  · have out : clockedOut clocked s.slot.bytes = List.replicate clocked 0x00#8 := by
      refine List.ext_getElem? fun i => ?_
      obtain ⟨length, bytes⟩ := clockedOut_spec clocked s.slot.bytes
      by_cases hi : i < clocked
      · rw [bytes i hi, List.getElem?_replicate_of_lt hi, slot]
        cases i <;> rfl
      · rw [List.getElem?_eq_none (by omega), List.getElem?_eq_none (by simp; omega)]
    rw [exec, execReadReply, if_pos h, out, State.endFrame, h, ← slot]
    rfl
  · obtain ⟨length, bytes⟩ := clockedOut_spec clocked s.slot.bytes
    refine ⟨clockedOut clocked s.slot.bytes, ?_, length, fun i hi => ?_⟩
    · rw [exec, execReadReply, if_pos h, State.endFrame, h]
      rfl
    · rw [bytes i hi, slot]
      rfl

/-! Reading back -/

/-- A well-formed service command is read back from its bytes (R171, R184). -/
theorem decodeServiceFrame_encode {c : Instr} {bytes : List Byte} (wf : c.wf = true)
    (e : encodeServiceFrame c = some bytes) : decodeServiceFrame bytes = c := by
  cases c <;> simp only [encodeServiceFrame, Option.some.injEq, reduceCtorEq] at e
  case recordCommandEntersSlot code payload =>
    subst e
    have known : (RecordKind.ofCode code).isSome = true := wf
    simp only [decodeServiceFrame, known, if_true]
  case unknownCommandCode code payload =>
    cases code with
    | none =>
      have empty : payload = [] := List.isEmpty_iff.mp wf
      obtain rfl : [] = bytes := by simpa using e
      rw [empty]
      rfl
    | some x =>
      obtain rfl : x :: payload = bytes := by simpa using e
      exact decodeServiceFrame_unknown (by simpa [Instr.wf, unknownCodeOk] using wf) payload
  case readReply clocked =>
    subst e
    have read : decodeServiceFrame (Codes.readReply :: List.replicate clocked 0#8) =
      .readReply (List.replicate clocked 0#8).length := rfl
    rw [read, List.length_replicate]
  all_goals subst e; rfl

/-- Settles O51: the lines give the bits, the bits the bytes, and the bytes the command. -/
theorem serviceFramesReadBack : Obligations.ServiceFramesReadBack := by
  intro c bytes extra wf encoded short
  have read := decodeServiceFrame_encode wf encoded
  have bits : decodeServiceBits (Bytes.bits bytes ++ extra) = c := by
    rw [decodeServiceBits, Bytes.ofBits_bits bytes short, read]
  exact ⟨read, bits, by rw [decodeServiceWires, Bytes.sampled_clocks, bits]⟩

/-! Every command completes -/

theorem Move.pending {s t : State} (m : Move s t) : t.pending = s.pending := by
  cases m with
  | same t _ queue => exact queue
  | fault b kind _ => exact State.faultLinked_pending ..
  | holdExpired b _ => exact State.faultLinked_pending ..
  | drop b _ => exact State.dropLinked_pending ..
  | ack b _ _ _ => exact State.completeDraining_pending _
  | drain cause b d code _ => exact State.enterDraining_pending ..
  | halt cause b code => exact State.enterHalted_pending ..
  | startRun budget _ _ _ => exact (s.samePort_startRun budget).pending
  | resync _ _ => exact s.samePort_resync.pending
  | rewind _ _ => exact s.samePort_rewind.pending
  | advance x rest _ _ => exact (s.samePort_advanceAt x.time).pending
  | expel b _ => rw [State.mapDomains_pending, State.modifyBoard_pending]
  | take k who params =>
    have writes := k.take_writes who params s
    rw [writes.state]
  | _ => rfl

/-- Settles O3: every command is a chain of moves, which leave the queue alone. -/
theorem everyCommandCompletes : Obligations.EveryCommandCompletes := by
  refine fun c s => ⟨?_, fun bytes encoded => ?_, fun b tag kind params form long => ?_⟩
  · obtain ⟨t, taken, moves⟩ := exec_reaches c s
    exact ⟨t, taken, moves.keeps (P := fun u => u.pending = s.pending) (fun _ _ k m => m.pending.trans k) rfl⟩
  · cases bytes with
    | nil =>
      obtain ⟨payload, rfl⟩ := encodeServiceFrame_nil encoded
      rfl
    | cons code payload => rw [exec_eq_takeServiceFrame s encoded, takeServiceFrame_eq]
  · subst form
    have tooLong : ¬ requestLengthOk params = true := fun k => by
      have := requestLengthOk_iff.mp k
      omega
    exact congrArg Host.Outcome.next (if_neg tooLong)

end Sys2Proof.Machine
end

section
/-! SUPPORT. The cabinet, attention, board and run commands: the statements O10, O11, O42, O43, O48 and O49. -/

namespace Sys2Proof.Machine

open Sys2Proof.Safety

/-- A command that answers at once, in a READY frame of its length (R171, R175). -/
theorem exec_answers {c : Instr} {s u : State} {code : Byte} {length : Nat} {payload : List Byte}
    {body : List Byte → State → Answer} {status : Status} {data : List Byte}
    (form : exec c s = .next (s.command code length payload body)) (h : s.frameStatus = .ready)
    (l : payload.length = length) (hu : u.frameStatus = .ready)
    (answer : body payload (s.endFiller length) = ⟨u.endFiller length, status, data⟩) :
    exec c s = .next (answered u code status data length) := by
  subst l
  rw [form, State.command_answers h rfl hu answer]

/-! The cabinet (R176) and the Attention Unit (R178 to R180) -/

theorem parseSetCabinet_of_range {k e : Byte}
    (h : (k.toNat = 4 ∨ k.toNat = 8 ∨ k.toNat = 16) ∧ 1 ≤ e.toNat ∧ e.toNat ≤ 31) :
    parseSetCabinet [k, e] = some (k.toNat, e.toNat) := if_pos h

theorem parseSetCabinet_of_not {k e : Byte}
    (h : ¬ ((k.toNat = 4 ∨ k.toNat = 8 ∨ k.toNat = 16) ∧ 1 ≤ e.toNat ∧ e.toNat ≤ 31)) :
    parseSetCabinet [k, e] = none := if_neg h

/-- Settles O10, each command by its reader. -/
theorem cabinetAndAttentionCommandsAnswerAtOnce : Obligations.CabinetAndAttentionCommandsAnswerAtOnce := by
  refine ⟨fun s k e h => ⟨fun range => ?_, fun range => ?_, ?_⟩, fun s m h => ⟨fun range => ?_, fun range => ?_, ?_⟩⟩
  · refine exec_answers rfl h rfl (u := { s with filterK := k.toNat, escalationE := e.toNat }) h ?_
    simp only [answerSetCabinet, parseSetCabinet_of_range range]
    rfl
  · refine exec_answers rfl h rfl h ?_
    simp only [answerSetCabinet, parseSetCabinet_of_not range]
    rfl
  · exact exec_answers rfl h rfl h rfl
  · refine exec_answers rfl h rfl (u := { s with mask := m.toNat }) h ?_
    simp only [answerSetMask, parseSetMask, if_pos range]
    rfl
  · refine exec_answers rfl h rfl h ?_
    have out : ¬ m.toNat ≤ 7 := by omega
    simp only [answerSetMask, parseSetMask, if_neg out]
    rfl
  · exact exec_answers rfl h rfl (u := { s with events := ⟨false, false, false, false, 0, 0, 0, 0⟩ }) h rfl

theorem Bits.exists_has {n : Nat} {x : BitVec n} (h : x ≠ 0) : ∃ i : Fin n, Bits.has x i = true := by
  by_contra none
  refine h (BitVec.eq_of_getLsbD_eq fun i hi => ?_)
  have off : ¬ Bits.has x i = true := fun on => none ⟨⟨i, hi⟩, on⟩
  simpa [Bits.has] using off

theorem Bits.ne_zero_of_has {n i : Nat} {x : BitVec n} (h : Bits.has x i = true) : x ≠ 0 := by
  rintro rfl
  simp [Bits.has] at h

/-- No pending event is above the top level. -/
theorem Events.level_le_topLevel {v : Events} {e : Event} (h : v.has e = true) : e.level ≤ v.topLevel := by
  cases e <;> simp only [Events.has] at h
  case linked => have := Bits.ne_zero_of_has h; unfold Events.topLevel Event.level; grind
  case count => have := Bits.ne_zero_of_has h; unfold Events.topLevel Event.level; grind
  case linkDown => have := Bits.ne_zero_of_has h; unfold Events.topLevel Event.level; grind
  case boardFault => have := Bits.ne_zero_of_has h; unfold Events.topLevel Event.level; grind
  all_goals unfold Events.topLevel Event.level; grind

/-- The top level is the level of a pending event. -/
theorem Events.topLevel_attained (v : Events) : v.topLevel = 0 ∨ ∃ e, v.has e = true ∧ v.topLevel = e.level := by
  unfold Events.topLevel
  split
  · exact .inr ⟨.haltLine, by assumption, rfl⟩
  split
  · exact .inr ⟨.halted, by assumption, rfl⟩
  split
  · rename_i some
    obtain ⟨b, on⟩ := Bits.exists_has some
    exact .inr ⟨.boardFault b, on, rfl⟩
  split
  · rename_i some
    obtain ⟨b, on⟩ := Bits.exists_has some
    exact .inr ⟨.linkDown b, on, rfl⟩
  split
  · exact .inr ⟨.stopped, by assumption, rfl⟩
  split
  · rename_i some
    obtain ⟨d, on⟩ := Bits.exists_has some
    exact .inr ⟨.count d, on, rfl⟩
  split
  · rename_i some
    obtain ⟨b, on⟩ := Bits.exists_has some
    exact .inr ⟨.linked b, on, rfl⟩
  split
  · exact .inr ⟨.resetDone, by assumption, rfl⟩
  · exact .inl rfl

/-- Settles O11: the top level is attained and bounds the rest. -/
theorem attentionFollowsEventsAndMask : Obligations.AttentionFollowsEventsAndMask := by
  intro s
  have line : s.events.haltLine = true ↔ s.events.has .haltLine = true := Iff.rfl
  rw [State.attnAsserted, Bool.or_eq_true, decide_eq_true_eq, or_comm, line]
  refine or_congr_left ⟨fun above => ?_, fun ⟨e, pending, above⟩ => ?_⟩
  · rcases s.events.topLevel_attained with zero | ⟨e, pending, level⟩
    · omega
    · exact ⟨e, pending, level ▸ above⟩
  · exact Nat.lt_of_lt_of_le above (Events.level_le_topLevel pending)

/-! Board commands (R126 to R131) -/

section BoardCommands
variable {s : State} {x : Byte} {b : BoardNo}

theorem State.standsStill_iff : s.standsStill = true ↔ s.runState = .stopped ∨ s.runState = .halted := by
  simp [State.standsStill]

theorem State.standsStill_eq_false (h : s.runState = .running ∨ s.runState = .draining) : s.standsStill = false := by
  rcases h with h | h <;> simp [State.standsStill, h]

theorem State.not_standsStill_eq_false (h : s.runState = .stopped ∨ s.runState = .halted) :
    ¬ s.standsStill = false := by
  simp [State.standsStill_iff.mpr h]

/-! ADMIT, its checks one after another (R127) -/

theorem answerAdmit_badParam (hx : 64 ≤ x.toNat) : answerAdmit [x] s = s.answer .badParam := by
  simp only [answerAdmit, parseBoard_of_ge hx]

theorem answerAdmit_wrongState (hx : x.toNat = b.val) (moving : s.runState = .running ∨ s.runState = .draining) :
    answerAdmit [x] s = s.answer .wrongState := by
  simp only [answerAdmit, parseBoard_of_val hx, if_pos (State.standsStill_eq_false moving)]

theorem answerAdmit_already (hx : x.toNat = b.val) (still : s.runState = .stopped ∨ s.runState = .halted)
    (member : (s.board b).member = true) : answerAdmit [x] s = s.answer .already := by
  simp only [answerAdmit, parseBoard_of_val hx, if_neg (State.not_standsStill_eq_false still), if_pos member]

theorem answerAdmit_notReady (hx : x.toNat = b.val) (still : s.runState = .stopped ∨ s.runState = .halted)
    (member : (s.board b).member = false) (link : (s.board b).link ≠ .linked) :
    answerAdmit [x] s = s.answer .notReady := by
  have outside : ¬ (s.board b).member = true := by simp [member]
  simp only [answerAdmit, parseBoard_of_val hx, if_neg (State.not_standsStill_eq_false still), if_neg outside,
    if_pos (Board.isLinked_eq_false.mpr link)]

theorem answerAdmit_taken (hx : x.toNat = b.val) (still : s.runState = .stopped ∨ s.runState = .halted)
    (member : (s.board b).member = false) (link : (s.board b).link = .linked) :
    answerAdmit [x] s = (s.setBoard b { s.board b with member := true }).answer .ok := by
  have outside : ¬ (s.board b).member = true := by simp [member]
  have linked : ¬ (s.board b).isLinked = false := fun k => Board.isLinked_eq_false.mp k link
  simp only [answerAdmit, parseBoard_of_val hx, if_neg (State.not_standsStill_eq_false still), if_neg outside,
    if_neg linked]
  rfl

/-! EXPEL (R21, R128) -/

theorem answerExpel_badParam (hx : 64 ≤ x.toNat) : answerExpel [x] s = s.answer .badParam := by
  simp only [answerExpel, parseBoard_of_ge hx]

theorem answerExpel_wrongState (hx : x.toNat = b.val) (moving : s.runState = .running ∨ s.runState = .draining) :
    answerExpel [x] s = s.answer .wrongState := by
  simp only [answerExpel, parseBoard_of_val hx, if_pos (State.standsStill_eq_false moving)]

theorem answerExpel_already (hx : x.toNat = b.val) (still : s.runState = .stopped ∨ s.runState = .halted)
    (member : (s.board b).member = false) : answerExpel [x] s = s.answer .already := by
  simp only [answerExpel, parseBoard_of_val hx, if_neg (State.not_standsStill_eq_false still), if_pos member]

theorem answerExpel_taken {v : Vector (Option Domain) 48} (hx : x.toNat = b.val)
    (still : s.runState = .stopped ∨ s.runState = .halted) (member : (s.board b).member = true)
    (records : v = Vector.ofFn fun d => (s.domain d).map fun r => r.withoutBoard b) :
    answerExpel [x] s = State.answer { s.setBoard b (s.board b).expelled with records := v } .ok := by
  have inside : ¬ (s.board b).member = false := by simp [member]
  simp only [answerExpel, parseBoard_of_val hx, if_neg (State.not_standsStill_eq_false still), if_neg inside]
  unfold State.mapDomains
  rw [records]
  rfl

theorem exec_expel_taken {v : Vector (Option Domain) 48} (h : s.frameStatus = .ready) (hx : x.toNat = b.val)
    (still : s.runState = .stopped ∨ s.runState = .halted) (member : (s.board b).member = true)
    (records : v = Vector.ofFn fun d => (s.domain d).map fun r => r.withoutBoard b) :
    exec (.expel [x]) s = .next (answered { s.setBoard b (s.board b).expelled with records := v } 0x31#8 .ok [] 1) :=
  exec_answers rfl h rfl (u := { s.setBoard b (s.board b).expelled with records := v }) h
    (answerExpel_taken (s := s.endFiller 1) hx still member records)

/-! RETRAIN (R126) -/

/-- RETRAIN of a board in FAULT writes its entry once. -/
theorem State.retrain_eq (s : State) (b : BoardNo) : s.retrain b = s.setBoard b { s.board b with
    timedOut := 0
    txQueue := []
    link := if (s.board b).signal = true then .training ⟨s.filterK, 1, [], s.clock⟩ else .down } := by
  unfold State.retrain
  split
  · simp only [State.startTraining, State.modifyBoard, State.setBoard_setBoard, State.board_setBoard, if_true]
    rfl
  · rfl

theorem answerRetrain_wrongState (hx : x.toNat = b.val) (link : (s.board b).link ≠ .fault) :
    answerRetrain [x] s = s.answer .wrongState := by
  simp only [answerRetrain, parseBoard_of_val hx]
  split
  · contradiction
  all_goals rfl

theorem answerRetrain_taken (hx : x.toNat = b.val) (link : (s.board b).link = .fault) :
    answerRetrain [x] s = (s.setBoard b { s.board b with
      timedOut := 0
      txQueue := []
      link := if (s.board b).signal = true then .training ⟨s.filterK, 1, [], s.clock⟩ else .down }).answer .ok := by
  simp only [answerRetrain, parseBoard_of_val hx, link, State.retrain_eq]

end BoardCommands

/-- Settles O48: each command by its checks in order. -/
theorem boardsAreAdmittedExpelledAndRetrained : Obligations.BoardsAreAdmittedExpelledAndRetrained := by
  refine ⟨fun s x h => ⟨fun hx => ⟨?_, ?_⟩, fun b hx => ⟨fun moving => ⟨?_, ?_⟩, fun still => ⟨fun member => ?_,
      fun member link => ?_, fun member link => ?_, fun member => ?_, fun member => ?_⟩⟩⟩,
    fun s x h => ⟨fun hx => ?_, fun b hx => ⟨fun link => ?_, fun link => ?_⟩⟩⟩
  · exact exec_answers rfl h rfl h (answerAdmit_badParam hx)
  · exact exec_answers rfl h rfl h (answerExpel_badParam hx)
  · exact exec_answers rfl h rfl h (answerAdmit_wrongState hx moving)
  · exact exec_answers rfl h rfl h (answerExpel_wrongState hx moving)
  · exact exec_answers rfl h rfl h (answerAdmit_already (s := s.endFiller 1) hx still member)
  · exact exec_answers rfl h rfl h (answerAdmit_notReady (s := s.endFiller 1) hx still member link)
  · exact exec_answers rfl h rfl (u := s.setBoard b { s.board b with member := true }) h
      (answerAdmit_taken (s := s.endFiller 1) hx still member link)
  · exact exec_answers rfl h rfl h (answerExpel_already (s := s.endFiller 1) hx still member)
  · exact exec_expel_taken h hx still member rfl
  · exact exec_answers rfl h rfl h (by simp only [answerRetrain, parseBoard_of_ge hx]; rfl)
  · exact exec_answers rfl h rfl h (answerRetrain_wrongState (s := s.endFiller 1) hx link)
  · exact exec_answers rfl h rfl h (answerRetrain_taken (s := s.endFiller 1) hx link)

theorem Bytes.toNat_two (x y : Byte) : Bytes.toNat [x, y] = x.toNat * 256 + y.toNat := by
  simp [Bytes.toNat]

theorem parseSetBoard_eq {x w h1 h2 a1 a2 : Byte} {b : BoardNo} (hx : x.toNat = b.val) :
    parseSetBoard [x, w, h1, h2, a1, a2] =
      if 1 ≤ w.toNat ∧ w.toNat ≤ 8 ∧ 1 ≤ a1.toNat * 256 + a2.toNat then
        some ⟨b, w.toNat, h1.toNat * 256 + h2.toNat, a1.toNat * 256 + a2.toNat⟩
      else none := by
  simp only [parseSetBoard, boardOf_of_val hx, Bytes.toNat_two]

/-- SET BOARD with a payload that a reader refuses (R130 step 1). -/
theorem parseSetBoard_of_not {x w h1 h2 a1 a2 : Byte}
    (h : ¬ (x.toNat < 64 ∧ 1 ≤ w.toNat ∧ w.toNat ≤ 8 ∧ 1 ≤ a1.toNat * 256 + a2.toNat)) :
    parseSetBoard [x, w, h1, h2, a1, a2] = none := by
  by_cases board : x.toNat < 64
  · have range : ¬ (1 ≤ w.toNat ∧ w.toNat ≤ 8 ∧ 1 ≤ a1.toNat * 256 + a2.toNat) := fun k => h ⟨board, k⟩
    rw [parseSetBoard_eq (b := ⟨x.toNat, board⟩) rfl, if_neg range]
  · simp only [parseSetBoard, boardOf_of_ge (by omega : 64 ≤ x.toNat)]

/-- A set of fewer than eight members fills one byte (R183). -/
theorem Bytes.ofSet_one (x : CauseSet) : Bytes.ofSet 1 x = [x.setWidth 8] := by
  simp only [Bytes.ofSet, Bytes.be, Nat.pow_zero, Nat.div_one, List.cons.injEq, and_true]
  exact BitVec.eq_of_toNat_eq (by simp)

theorem Bytes.length_be (n v : Nat) : (Bytes.be n v).length = n := by
  induction n generalizing v with
  | zero => rfl
  | succ n ih => rw [Bytes.be, List.length_cons, ih]

theorem Bytes.be_one (v : Nat) : Bytes.be 1 v = [BitVec.ofNat 8 v] := by simp [Bytes.be]

/-- Settles O49: SET BOARD by its checks, READ BOARD by the layout of the record. -/
theorem boardSettingsAreSetAndReported : Obligations.BoardSettingsAreSetAndReported := by
  refine ⟨fun s x w h1 h2 a1 a2 h => ⟨fun range => ?_, fun b hx range => ⟨fun busy => ?_, fun run clear => ?_⟩⟩,
    fun s x h => ⟨fun hx => ?_, fun b hx => ?_⟩⟩
  · exact exec_answers rfl h rfl h (by simp only [answerSetBoard, parseSetBoard_of_not range]; rfl)
  · refine exec_answers rfl h rfl h ?_
    simp only [answerSetBoard, parseSetBoard_eq hx, if_pos range.2]
    by_cases run : (s.endFiller 6).runState = .running
    · rw [if_pos run]
      rfl
    · have owes : ((s.endFiller 6).board b).outstanding ≠ 0 := busy.resolve_left run
      rw [if_neg run, if_pos owes]
      rfl
  · refine exec_answers rfl h rfl (u := s.setBoard b { s.board b with
      window := w.toNat
      holdLimit := h1.toNat * 256 + h2.toNat
      ackBase := a1.toNat * 256 + a2.toNat }) h ?_
    have run' : ¬ (s.endFiller 6).runState = .running := run
    have clear' : ¬ ((s.endFiller 6).board b).outstanding ≠ 0 := fun k => k clear
    simp only [answerSetBoard, parseSetBoard_eq hx, if_pos range.2, if_neg run', if_neg clear']
    rfl
  · exact exec_answers rfl h rfl h (by simp only [answerReadBoard, parseBoard_of_ge hx]; rfl)
  · intro e data
    have record : e.record = data := by
      simp only [Board.record, data, Bytes.ofSet_one, Bytes.be_one, Board.allowance, Config.unitsPerMicrosecond]
      cases e.link <;> cases e.lastFault <;> cases e.capacity with
      | none => rfl
      | some c => cases c <;> rfl
    refine ⟨?_, ?_⟩
    · rw [← record]
      refine exec_answers rfl h rfl (u := s.setBoard b { e with longestAckWait := 0 }) h ?_
      simp only [answerReadBoard, parseBoard_of_val hx]
      rfl
    · simp only [data, List.length_append, List.length_cons, List.length_nil, Bytes.length_be]

/-! RUN and STEP (R92 to R95), and the refusals of the run commands (R93, R107) -/

theorem Bytes.toNat_six (v1 v2 v3 v4 v5 v6 : Byte) : Bytes.toNat [v1, v2, v3, v4, v5, v6] =
    ((((v1.toNat * 256 + v2.toNat) * 256 + v3.toNat) * 256 + v4.toNat) * 256 + v5.toNat) * 256 + v6.toNat := by
  simp [Bytes.toNat]

section Limits
variable {form v1 v2 v3 v4 v5 v6 : Byte}

/-- RUN's limit as R93 and R185 give its three forms. -/
theorem parseRun_eq : parseRun [form, v1, v2, v3, v4, v5, v6] =
    let value := ((((v1.toNat * 256 + v2.toNat) * 256 + v3.toNat) * 256 + v4.toNat) * 256 + v5.toNat) * 256 + v6.toNat
    if form = 0x00#8 then (if value = 0 then some .unlimited else none)
    else if form = 0x01#8 then (if 1 ≤ value ∧ value < 2 ^ 32 then some (.sets value) else none)
    else if form = 0x02#8 then some (.untilTime value)
    else none := by
  rw [← Bytes.toNat_six]
  rfl

end Limits

section RunCommands
variable {s : State} {b : Budget}

theorem checkRun_wrongState (r : s.runState ≠ .stopped) : s.checkRun b = s.answer .wrongState := if_pos r

theorem checkRun_noMembers (r : s.runState = .stopped) (m : s.anyMember = false) : s.checkRun b = s.answer .noMembers := by
  simp only [State.checkRun, if_neg (not_not_intro r), if_pos m]

/-- An UNTIL limit must be ahead of emulation time (R93 step 4). -/
theorem checkRun_late {l : Nat} (r : s.runState = .stopped) (m : s.anyMember = true) (late : l ≤ s.time) :
    s.checkRun (.untilTime l) = s.answer .badParam := by
  have present : ¬ s.anyMember = false := by simp [m]
  have behind : ¬ s.time < l := by omega
  simp only [State.checkRun, if_neg (not_not_intro r), if_neg present, if_neg behind]

theorem checkRun_taken (r : s.runState = .stopped) (m : s.anyMember = true)
    (ahead : ∀ l, b = .untilTime l → s.time < l) : s.checkRun b = (s.startRun b).answer .ok := by
  have present : ¬ s.anyMember = false := by simp [m]
  simp only [State.checkRun, if_neg (not_not_intro r), if_neg present]
  cases b with
  | unlimited => rfl
  | sets n => rfl
  | untilTime l => exact if_pos (ahead l rfl)

theorem levelSetCommand_wrongState {t : State} (r : s.runState ≠ .stopped) :
    s.levelSetCommand t = s.answer .wrongState := if_pos r

theorem levelSetCommand_noMembers {t : State} (r : s.runState = .stopped) (m : s.anyMember = false) :
    s.levelSetCommand t = s.answer .noMembers := by
  rw [State.levelSetCommand, if_neg (not_not_intro r), if_pos m]

theorem State.anyMember_eq_false (h : ∀ b, (s.board b).member = false) : s.anyMember = false := by
  rw [Bool.eq_false_iff]
  intro k
  obtain ⟨b, m⟩ := s.anyMember_iff.mp k
  simp [h b] at m

end RunCommands

/-- Settles O43: the checks of R93 and R107 in their order. -/
theorem runCommandsAreRefusedOutsideStopped : Obligations.RunCommandsAreRefusedOutsideStopped := by
  intro s form v1 v2 v3 v4 v5 v6 h value limit
  have parsed : limit → ∃ b, parseRun [form, v1, v2, v3, v4, v5, v6] = some b := by
    rw [parseRun_eq]
    rintro (⟨rfl, zero⟩ | ⟨rfl, range⟩ | rfl)
    · exact ⟨_, if_pos zero⟩
    · exact ⟨_, if_pos range⟩
    · exact ⟨_, rfl⟩
  refine ⟨fun bad => ?_, fun c code n row good => ?_, fun until_ run member late => ?_⟩
  · have refused : parseRun [form, v1, v2, v3, v4, v5, v6] = none := by
      rw [parseRun_eq]
      dsimp only
      split_ifs with none zero sets range until_
      · exact absurd (.inl ⟨none, zero⟩) bad
      · rfl
      · exact absurd (.inr (.inl ⟨sets, range⟩)) bad
      · rfl
      · exact absurd (.inr (.inr until_)) bad
      · rfl
    exact exec_answers rfl h rfl h (by simp only [answerRun, refused]; rfl)
  · obtain ⟨b, read⟩ := parsed good
    have runs : answerRun [form, v1, v2, v3, v4, v5, v6] (s.endFiller 7) = (s.endFiller 7).checkRun b := by
      simp only [answerRun, read]
    simp only [List.mem_cons, Prod.mk.injEq, List.not_mem_nil, or_false] at row
    refine ⟨fun run => ?_, fun run members => ?_⟩
    · rcases row with ⟨rfl, rfl, rfl⟩ | ⟨rfl, rfl, rfl⟩ | ⟨rfl, rfl, rfl⟩ | ⟨rfl, rfl, rfl⟩
      · exact exec_answers rfl h rfl h (runs.trans (checkRun_wrongState run))
      · exact exec_answers rfl h rfl h (checkRun_wrongState run)
      · exact exec_answers rfl h rfl h (levelSetCommand_wrongState run)
      · exact exec_answers rfl h rfl h (levelSetCommand_wrongState run)
    · have none : ∀ n, (s.endFiller n).anyMember = false := fun n => State.anyMember_eq_false members
      rcases row with ⟨rfl, rfl, rfl⟩ | ⟨rfl, rfl, rfl⟩ | ⟨rfl, rfl, rfl⟩ | ⟨rfl, rfl, rfl⟩
      · exact exec_answers rfl h rfl h (runs.trans (checkRun_noMembers run (none 7)))
      · exact exec_answers rfl h rfl h (checkRun_noMembers run (none 0))
      · exact exec_answers rfl h rfl h (levelSetCommand_noMembers run (none 0))
      · exact exec_answers rfl h rfl h (levelSetCommand_noMembers run (none 0))
  · subst until_
    have read : parseRun [0x02#8, v1, v2, v3, v4, v5, v6] = some (.untilTime value) := parseRun_eq
    refine exec_answers rfl h rfl h ?_
    simp only [answerRun, read]
    exact checkRun_late (s := s.endFiller 7) run (State.anyMember_iff _ |>.mpr member) late

/-- The run that RUN and STEP start, its entries as O42 writes them. -/
theorem State.started_eq (s : State) (b : Budget) : s.started b = { s with
    budget := b
    runState := .running
    stopRecord := ⟨.nothing, none, none, none, s.time, s.seq⟩
    boards := Vector.ofFn fun b =>
      if (s.board b).member = true ∧ (s.board b).held ≠ 0 ∧ (s.board b).holdLimit ≠ 0 then
        { s.board b with holdTimer := some (s.clock + 100000 * (s.board b).holdLimit) }
      else s.board b } := by
  have boards : (s.started b).boards = Vector.ofFn fun b =>
      if (s.board b).member = true ∧ (s.board b).held ≠ 0 ∧ (s.board b).holdLimit ≠ 0 then
        { s.board b with holdTimer := some (s.clock + 100000 * (s.board b).holdLimit) }
      else s.board b := by
    refine boards_ext fun c => ?_
    have read : (s.started b).boards[c] = (s.board c).armed s.clock := s.board_started b c
    rw [read]
    simp only [Board.armed, Board.armHoldTimer, Fin.getElem_fin, Vector.getElem_ofFn, Config.unitsPerMillisecond]
    split_ifs <;> simp_all
  rw [← boards]
  rfl

/-- RUN and STEP answer OK with the state that the start of the run leaves (R94, R95). -/
theorem exec_run_step {s : State} {form v1 v2 v3 v4 v5 v6 : Byte} {budget : Budget} {left : Budget → State}
    (h : s.frameStatus = .ready) (run : s.runState = .stopped) (member : ∃ b, (s.board b).member = true)
    (limit : form = 0x00#8 ∧ Bytes.toNat [v1, v2, v3, v4, v5, v6] = 0 ∧ budget = .unlimited ∨
      form = 0x01#8 ∧ 1 ≤ Bytes.toNat [v1, v2, v3, v4, v5, v6] ∧ Bytes.toNat [v1, v2, v3, v4, v5, v6] < 2 ^ 32 ∧
        budget = .sets (Bytes.toNat [v1, v2, v3, v4, v5, v6]) ∨
      form = 0x02#8 ∧ s.time < Bytes.toNat [v1, v2, v3, v4, v5, v6] ∧
        budget = .untilTime (Bytes.toNat [v1, v2, v3, v4, v5, v6]))
    (port : ∀ b, (left b).frameStatus = .ready)
    (starts : ∀ n b, (s.endFiller n).startRun b = (left b).endFiller n) :
    exec (.run [form, v1, v2, v3, v4, v5, v6]) s = .next (answered (left budget) 0x20#8 .ok [] 7) ∧
      exec (.step []) s = .next (answered (left (.sets 1)) 0x21#8 .ok [] 0) := by
  have present : ∀ n, (s.endFiller n).anyMember = true := fun n => (State.anyMember_iff _).mpr member
  have taken : ∀ n b, (∀ l, b = .untilTime l → s.time < l) →
      (s.endFiller n).checkRun b = ((left b).endFiller n).answer .ok := fun n b ahead => by
    rw [checkRun_taken (s := s.endFiller n) run (present n) ahead, starts]
  have read : parseRun [form, v1, v2, v3, v4, v5, v6] = some budget ∧ ∀ l, budget = .untilTime l → s.time < l := by
    rcases limit with ⟨rfl, zero, rfl⟩ | ⟨rfl, least, most, rfl⟩ | ⟨rfl, ahead, rfl⟩
    · exact ⟨if_pos zero, nofun⟩
    · exact ⟨if_pos ⟨least, most⟩, nofun⟩
    · exact ⟨rfl, fun l same => by cases same; exact ahead⟩
  refine ⟨exec_answers rfl h rfl (port _) ?_, exec_answers rfl h rfl (port _) (taken 0 _ nofun)⟩
  simp only [answerRun, read.1]
  exact taken 7 budget read.2

/-- Settles O42: the run that starts with a calendar stands, and one without drains at once. -/
theorem runAndStepStartTheRun : Obligations.RunAndStepStartTheRun := by
  constructor
  · intro s form v1 v2 v3 v4 v5 v6 budget h run member calendar value limit started
    simp only [value, ← Bytes.toNat_six] at limit
    refine exec_run_step (left := started) h run member limit (fun _ => h) fun n b => ?_
    have stands : ¬ ((s.endFiller n).started b).calendar = [] := calendar
    rw [State.startRun_eq, State.emptyStop, if_neg fun k => stands k.2, State.started_eq]
    rfl
  · intro s form v1 v2 v3 v4 v5 v6 budget h run member calendar value limit drains stopped
    simp only [value, ← Bytes.toNat_six] at limit
    refine ⟨fun clear => ?_, fun waits => ?_⟩
    · refine exec_run_step (left := stopped) h run member limit (fun _ => h) fun n b => ?_
      exact ((s.endFiller n).startRun_empty b calendar).1 (membersClear_endFiller.mpr clear)
    · refine exec_run_step (left := drains) h run member limit (fun _ => h) fun n b => ?_
      exact ((s.endFiller n).startRun_empty b calendar).2 (mt membersClear_endFiller.mp waits)

end Sys2Proof.Machine
end

section
/-! SUPPORT. The links: line events, the training attempt, faults and what a link's state rules out: the statements O12,
O13, O16 and O17. -/

namespace Sys2Proof.Machine

open Sys2Proof.Safety

section Links
variable {s : State} {b : BoardNo} {t : Training}

/-! One attempt's steps (R116 to R119) -/

theorem State.nextProbe_again {run : List Nat} (left : t.probeCount < 64) :
    s.nextProbe b t run = s.setBoard b { s.board b with
      link := .training { t with probeCount := t.probeCount + 1, run := run, sent := s.clock } } := by
  have more : ¬ Config.probeLimit ≤ t.probeCount := by unfold Config.probeLimit; omega
  rw [State.nextProbe, if_neg more]
  rfl

theorem State.nextProbe_fails {run : List Nat} (last : 64 ≤ t.probeCount) :
    s.nextProbe b t run = { s.setBoard b { s.board b with link := .fault, lastFault := some .trainFailed } with
      events := { s.events with boardFault := Bits.add s.events.boardFault b } } := by
  have spent : Config.probeLimit ≤ t.probeCount := last
  rw [State.nextProbe, if_pos spent]
  rfl

theorem State.probeAnswered_agrees {roundTrip : Nat} {c : Capacity} (full : (agree t.run roundTrip).length = t.filterK) :
    s.probeAnswered b t roundTrip c = { s.setBoard b { s.board b with
        link := .linked
        roundTrip := (agree t.run roundTrip).foldl max 0
        capacity := some c
        txQueue := .linkReady b (100 * (s.board b).ackBase + 4 * (agree t.run roundTrip).foldl max 0)
          ((agree t.run roundTrip).foldl max 0) :: (s.board b).txQueue } with
      events := { s.events with linked := Bits.add s.events.linked b } } := by
  rw [State.probeAnswered, if_pos full]
  rfl

theorem State.probeAnswered_continues {roundTrip : Nat} {c : Capacity}
    (short : (agree t.run roundTrip).length ≠ t.filterK) :
    s.probeAnswered b t roundTrip c = s.nextProbe b t (agree t.run roundTrip) := if_neg short

/-! Receptions by the end of the wait (R116, R120) -/

/-- A reception by the end of the wait is taken at its instant, which the clock has reached (log 20). -/
theorem State.passTo_reception (arrival : Nat) :
    s.passTo (max s.clock (t.sent + arrival)) = { s with clock := max s.clock (t.sent + arrival) } := by
  rw [State.passTo, max_eq_right (Nat.le_max_left _ _)]

theorem exec_echo_training {number code : Byte} {arrival : Nat} (link : (s.board b).link = .training t) :
    exec (.echo b number code arrival) s =
      .next (s.receiveEcho b number code (max s.clock (t.sent + arrival))) := by
  simp only [exec, execEcho, link]

theorem exec_echo_answers {number code : Byte} {arrival : Nat} {c : Capacity} (link : (s.board b).link = .training t)
    (wait : max s.clock (t.sent + arrival) ≤ t.sent + 10000) (current : number.toNat = t.probeCount)
    (capacity : Capacity.ofCode code = some c) :
    exec (.echo b number code arrival) s =
      .next (({ s with clock := max s.clock (t.sent + arrival) } : State).probeAnswered b t
        (max 1 (max s.clock (t.sent + arrival) - t.sent)) c) := by
  rw [exec_echo_training link, State.receiveEcho, State.awaitReception_waiting link wait]
  simp only [link, capacity, if_pos current, State.passTo_reception]
  rfl

theorem exec_echo_misses {number code : Byte} {arrival : Nat} (link : (s.board b).link = .training t)
    (wait : max s.clock (t.sent + arrival) ≤ t.sent + 10000)
    (wrong : number.toNat ≠ t.probeCount ∨ Capacity.ofCode code = none) :
    exec (.echo b number code arrival) s =
      .next (({ s with clock := max s.clock (t.sent + arrival) } : State).probeMissing b t) := by
  rw [exec_echo_training link, State.receiveEcho, State.awaitReception_waiting link wait]
  simp only [link, State.passTo_reception]
  cases capacity : Capacity.ofCode code with
  | none => rfl
  | some c =>
    have other : number.toNat ≠ t.probeCount := wrong.resolve_right (by simp [capacity])
    simp only [if_neg other]

theorem exec_probeAnswerTimeout_training (link : (s.board b).link = .training t) :
    exec (.probeAnswerTimeout b) s = .next ((s.passTo t.deadline).probeMissing b t) := by
  simp only [exec, execProbeAnswerTimeout, link]

/-- The wait's end leaves the next probe as sent there, or a link out of TRAINING (R116, R119; log 6). -/
theorem State.probeMissing_sent {next : Training} (link : ((s.probeMissing b t).board b).link = .training next) :
    next.sent = s.clock := by
  by_cases left : t.probeCount < 64
  · rw [State.probeMissing, State.nextProbe_again left, State.board_setBoard, if_pos rfl] at link
    cases link
    rfl
  · have gone : ((s.probeMissing b t).board b).link = .fault := by
      rw [State.probeMissing, State.nextProbe_fails (by omega)]
      show ((s.setBoard b _).board b).link = .fault
      rw [State.board_setBoard, if_pos rfl]
    rw [gone] at link
    exact nomatch link

theorem State.probeMissing_clock : (s.probeMissing b t).clock = s.clock := by
  by_cases left : t.probeCount < 64
  · rw [State.probeMissing, State.nextProbe_again left]
    rfl
  · rw [State.probeMissing, State.nextProbe_fails (by omega)]
    rfl

/-- Outside TRAINING an ECHO is not taken (R114, R121). -/
theorem State.receiveEcho_other {number code : Byte} {instant : Nat} (link : ∀ t, (s.board b).link ≠ .training t) :
    s.receiveEcho b number code instant = s := by
  rw [State.receiveEcho, State.awaitReception_other link]
  dsimp only
  split
  · rename_i t training
    exact absurd training (link t)
  all_goals rfl

theorem State.badReception_late {kind : FaultKind} (link : (s.board b).link = .training t) (late : t.deadline < s.clock) :
    s.badReception b kind = ((s.passTo t.deadline).probeMissing b t).badReception b kind := by
  have clock : ((s.passTo t.deadline).probeMissing b t).clock = s.clock := by
    rw [State.probeMissing_clock]
    exact max_eq_left late.le
  rw [State.badReception, State.awaitReception_late link late, State.badReception, clock]

/-! Causes of R123 -/

theorem State.faultBoard_linked {kind : FaultKind} (link : (s.board b).link = .linked) :
    s.faultBoard b kind = s.faultLinked b kind := by
  simp only [State.faultBoard, link]

theorem State.faultBoard_other {kind : FaultKind} (link : (s.board b).link ≠ .linked) : s.faultBoard b kind = s := by
  unfold State.faultBoard
  split
  · contradiction
  all_goals rfl

end Links

/-- Settles O12, by the link state. -/
theorem lineEventsMoveTheLink : Obligations.LineEventsMoveTheLink := by
  intro s b on off
  refine ⟨fun link phase => ?_, fun other => ?_, fun link => ?_, fun t link => ?_, fun link => ?_, fun link => ?_⟩
  · have ready : s.isReady = true := decide_eq_true phase
    simp only [exec, execLineActivityDetected, link, if_pos ready, State.startTraining, State.modifyBoard,
      State.setBoard_setBoard, State.board_setBoard, if_true]
    rfl
  · simp only [exec, execLineActivityDetected]
    split
    · rename_i link
      have away : ¬ s.isReady = true := by simpa [State.isReady] using other.resolve_left (not_not_intro link)
      rw [if_neg away]
      rfl
    all_goals rfl
  · simp only [exec, execLossOfSignal, link]
    rfl
  · simp only [exec, execLossOfSignal, link, State.modifyBoard, State.setBoard_setBoard, State.board_setBoard, if_true]
    rfl
  · simp only [exec, execLossOfSignal, link, State.modifyBoard, State.setBoard_setBoard, State.board_setBoard, if_true,
      off]
  · simp only [exec, execLossOfSignal, link]
    rfl

/-- Settles O13: the answered probe, the missing one, and the frame received after the wait. -/
theorem probesAreAnsweredOrMissing : Obligations.ProbesAreAnsweredOrMissing := by
  refine ⟨?_, ?_, ?_⟩
  · intro s b t number code arrival c link wait current capacity clock roundTrip run
    have taken := exec_echo_answers link wait current capacity
    refine ⟨⟨?_, ?_, ?_⟩, fun full => ?_, fun short left => ?_, fun short last => ?_⟩
    · exact Nat.le_max_left _ _
    · omega
    · omega
    · rw [taken, State.probeAnswered_agrees full]
      rfl
    · rw [taken, State.probeAnswered_continues short, State.nextProbe_again left]
      rfl
    · rw [taken, State.probeAnswered_continues short, State.nextProbe_fails last]
      rfl
  · intro s b t c clock link cause
    have taken : exec c s = .next (({ s with clock := clock } : State).probeMissing b t) := by
      rcases cause with ⟨rfl, rfl⟩ | ⟨frame, rfl, wait⟩ | ⟨number, code, arrival, rfl, wrong, rfl, wait⟩
      · exact exec_probeAnswerTimeout_training link
      · rcases frame with rfl | rfl <;> exact congrArg Host.Outcome.next (State.badReception_waiting link wait)
      · exact exec_echo_misses link wait wrong
    refine ⟨fun left => ?_, fun last => ?_⟩
    · rw [taken, State.probeMissing, State.nextProbe_again left]
      rfl
    · rw [taken, State.probeMissing, State.nextProbe_fails last]
      rfl
  · intro s ended b t number code arrival link ends received
    obtain rfl : (s.passTo t.deadline).probeMissing b t = ended := by
      rw [exec_probeAnswerTimeout_training link] at ends
      exact Host.Outcome.next.inj ends
    refine ⟨fun late => ⟨fun next again => ?_, fun gone => ?_⟩, fun late => ?_⟩
    · have sent := State.probeMissing_sent again
      have clock : ((s.passTo t.deadline).probeMissing b t).clock = max s.clock (t.sent + 10000) := State.probeMissing_clock
      have reached : max ((s.passTo t.deadline).probeMissing b t).clock (next.sent + (received - next.sent)) =
          received := by
        have passed : (s.passTo t.deadline).clock = max s.clock (t.sent + 10000) := rfl
        rw [clock, sent, passed]
        omega
      rw [exec_echo_training link, exec_echo_training again, reached, State.receiveEcho_late link late]
    · rw [exec_echo_training link, State.receiveEcho_late link late, State.receiveEcho_other gone]
    · exact ⟨congrArg Host.Outcome.next (State.badReception_late link late),
        congrArg Host.Outcome.next (State.badReception_late link late)⟩

/-- Settles O16, one cause after another. -/
theorem eachCauseFaultsALinkedBoard : Obligations.EachCauseFaultsALinkedBoard := by
  intro s b link
  have linked : (s.board b).isLinked = true := (Board.isLinked_iff _).mpr link
  refine ⟨?_, ?_, ?_, fun t timer => ?_, fun t timer => ?_⟩
  · exact congrArg Host.Outcome.next (State.badReception_linked link)
  · exact congrArg Host.Outcome.next (State.badReception_linked link)
  · exact congrArg Host.Outcome.next (State.faultBoard_linked link)
  · simp only [exec, execAckTimeout, timer]
    exact congrArg Host.Outcome.next (State.faultBoard_linked (s := s.passTo t.deadline) link)
  · have taken : execHoldTimeout b s =
        .next (((s.passTo t).modifyBoard b fun e => { e with timedOut := e.held }).faultLinked b .holdTimeout) := by
      simp only [execHoldTimeout, timer, if_pos linked]
    exact taken

/-- Settles O17: each event's branch for the states of the link that rule it out, and the grants of another kind. -/
theorem eventsTheStateRulesOutChangeNothing : Obligations.EventsTheStateRulesOutChangeNothing := by
  refine ⟨fun s b => ⟨fun number code arrival other => ?_, fun other => ?_, fun standing => ?_, fun other => ?_,
    fun standing x => ?_, fun timer => ?_, fun timer => ?_⟩, fun s k => ⟨fun other => ?_, fun known => ?_⟩⟩
  · simp only [exec, execEcho]
    split
    · rename_i t training
      exact absurd training (other t)
    all_goals rfl
  · simp only [exec, execProbeAnswerTimeout]
    split
    · rename_i t training
      exact absurd training (other t)
    all_goals rfl
  · have out : (s.board b).link ≠ .linked ∧ ∀ t, (s.board b).link ≠ .training t := by
      rcases standing with link | link <;> rw [link] <;> exact ⟨nofun, nofun⟩
    exact ⟨congrArg Host.Outcome.next (State.badReception_other out.1 out.2),
      congrArg Host.Outcome.next (State.badReception_other out.1 out.2)⟩
  · have unlinked : ¬ (s.board b).isLinked = true := fun k => other ((Board.isLinked_iff _).mp k)
    refine ⟨congrArg Host.Outcome.next (State.faultBoard_other other), fun n => ?_, fun tag kind params form => ?_⟩
    · simp only [exec, execAck]
      split
      · contradiction
      all_goals rfl
    · simp only [exec, execRequest, if_neg unlinked]
      split
      · rfl
      · rename_i long
        have untrained := form.resolve_left fun short => long (requestLengthOk_iff.mpr short)
        rw [State.badReception_other other untrained]
  · have unreached : ¬ (s.board b).reachesHoldUnit = true := by
      rw [Board.reachesHoldUnit_iff]
      rcases standing with link | ⟨t, link⟩ <;> simp [link]
    refine ⟨exec_hold_unreached unreached, ?_, ?_⟩
    · simp only [exec, execRelease, if_neg unreached]
    · simp only [exec, execStopFrame, if_neg unreached]
  · simp only [exec, execAckTimeout, timer]
  · simp only [exec, execHoldTimeout, timer]
  · rw [exec_grantCommand]
    exact State.grantOf_other other
  · simp only [exec, execUnknownRequestKind]
    cases grant : s.nextGrant with
    | none => rfl
    | some g => simp only [if_neg (known g grant)]

end Sys2Proof.Machine
end

section
/-! SUPPORT. Delivery, acknowledgements, transmit queues and the arbiter's choice: the statements O18, O19, O24, O25 and
O26. -/

namespace Sys2Proof.Machine

open Sys2Proof.Safety

/-! Acknowledgements (R140, R142, R144) -/

section Acks
variable {s : State} {b : BoardNo} {seq16 : BitVec 16}

theorem Board.takeAck_eq {e : Board} {timer : AckTimer} (clock : Nat) (running : e.ackTimer = some timer) :
    e.takeAck clock = { e with
      outstanding := e.outstanding - 1
      ackedSets := e.ackedSets + 1
      longestAckWait := max e.longestAckWait (min 65535 ((clock - timer.started) / 100))
      ackTimer :=
        if e.outstanding = 1 then none else some ⟨clock, clock + (100 * e.ackBase + 4 * e.roundTrip)⟩ } := by
  have wait : e.ackWait clock = min 65535 ((clock - timer.started) / 100) := by
    simp only [Board.ackWait, running]
    rfl
  unfold Board.takeAck
  rw [wait]
  by_cases last : e.outstanding = 1
  · simp only [if_pos last]
  · simp only [if_neg last]
    rfl

theorem exec_ack_taken (link : (s.board b).link = .linked) (member : (s.board b).member = true)
    (sent : 0 < (s.board b).outstanding)
    (oldest : seq16 = (s.seq - BitVec.ofNat 32 (s.board b).outstanding + 1).setWidth 16) :
    exec (.ack b seq16) s = .next (s.setBoard b ((s.board b).takeAck s.clock)).completeDraining := by
  have named : (s.board b).member = true ∧ 0 < (s.board b).outstanding ∧ seq16 = (s.oldest b).setWidth 16 :=
    ⟨member, sent, oldest⟩
  simp only [exec, execAck, link, if_pos named]
  rfl

theorem exec_ack_outOfOrder (link : (s.board b).link = .linked)
    (wrong : (s.board b).member = false ∨ (s.board b).outstanding = 0 ∨
      seq16 ≠ (s.seq - BitVec.ofNat 32 (s.board b).outstanding + 1).setWidth 16) :
    exec (.ack b seq16) s = .next (s.faultLinked b .ackOrder) := by
  have unnamed : ¬ ((s.board b).member = true ∧ 0 < (s.board b).outstanding ∧ seq16 = (s.oldest b).setWidth 16) := by
    rintro ⟨member, sent, oldest⟩
    rcases wrong with outside | none | other
    · simp [member] at outside
    · omega
    · exact other oldest
  simp only [exec, execAck, link, if_neg unnamed]

theorem State.completeDraining_clear (run : s.runState = .draining) (clear : membersClear s) :
    s.completeDraining = { s with runState := .stopped, events := { s.events with stopped := true } } :=
  if_pos ⟨run, State.drained_eq_membersClear.mpr clear⟩

theorem State.completeDraining_stays (stays : s.runState ≠ .draining ∨ ¬ membersClear s) : s.completeDraining = s :=
  if_neg fun k => stays.elim (fun run => run k.1) fun waits => waits (State.drained_eq_membersClear.mp k.2)

end Acks

/-- Settles O18: the ACK that is taken, which may end a draining, and every other one. -/
theorem acksAreTakenInOrder : Obligations.AcksAreTakenInOrder := by
  constructor
  · intro s b timer seq16 link member sent running oldest t
    have taken : exec (.ack b seq16) s = .next t.completeDraining := by
      rw [exec_ack_taken link member sent oldest, Board.takeAck_eq _ running]
    refine ⟨fun run clear => ?_, fun stays => ?_⟩
    · rw [taken, State.completeDraining_clear (s := t) run clear]
      rfl
    · rw [taken, State.completeDraining_stays (s := t) stays]
  · intro s b seq16 link wrong
    exact exec_ack_outOfOrder link wrong

/-! Copies (R135 to R138) -/

/-- A copy cut well: every piece but the last is full, and the last is neither too long nor empty without need (R136). -/
structure CutWell (c : Nat) (l : List (DomainNo × Level)) (pieces : List (List (DomainNo × Level))) : Prop where
  full : ∀ i, i + 1 < pieces.length → (pieces.getD i []).length = c
  last : (pieces.getD (pieces.length - 1) []).length ≤ c
  some : l ≠ [] → pieces.getD (pieces.length - 1) [] ≠ []

theorem cutWell_cutInto {c : Nat} (hc : 0 < c) {fuel : Nat} {l : List (DomainNo × Level)} (h : l.length ≤ fuel) :
    CutWell c l (cutInto c fuel l) := by
  induction fuel generalizing l with
  | zero =>
    obtain rfl : l = [] := List.length_eq_zero_iff.mp (by omega)
    exact ⟨fun i hi => absurd hi (by simp [cutInto]), by simp [cutInto], fun k => absurd rfl k⟩
  | succ fuel ih =>
    unfold cutInto
    split
    · rename_i short
      exact ⟨fun i hi => absurd hi (by simp), by simpa using short, fun k => by simpa using k⟩
    · rename_i long
      have rest := ih (l := l.drop c) (by rw [List.length_drop]; omega)
      have ne := cutInto_ne_nil c fuel (l.drop c)
      generalize cutInto c fuel (l.drop c) = ps at rest ne
      have pos : 0 < ps.length := List.length_pos_iff.mpr ne
      have lastPlace : (l.take c :: ps).getD ((l.take c :: ps).length - 1) [] = ps.getD (ps.length - 1) [] := by
        obtain ⟨n, hn⟩ : ∃ n, ps.length = n + 1 := ⟨ps.length - 1, by omega⟩
        simp [hn]
      refine ⟨fun i hi => ?_, lastPlace ▸ rest.last, fun _ => lastPlace ▸ rest.some fun k => ?_⟩
      · cases i with
        | zero =>
          have taken : (l.take c).length = c := by rw [List.length_take]; omega
          exact taken
        | succ i => exact rest.full i (by simpa using hi)
      · have length := congrArg List.length k
        rw [List.length_drop, List.length_nil] at length
        omega

/-- The parts carry the pieces in order, numbered, the last one flagged (R137). -/
theorem numberParts_getElem (kind : SetKind) (n : BitVec 16) (t i : Nat) (ls : List (List (DomainNo × Level))) {j : Nat}
    (h : j < ls.length) : (numberParts kind n t i ls)[j]? =
      some (.setPart ⟨kind, n, t, i + j, decide (j + 1 = ls.length), ls.getD j []⟩) := by
  induction ls generalizing i j with
  | nil => simp at h
  | cons l ls ih =>
    cases j with
    | zero =>
      have lone : ls.isEmpty = decide (0 + 1 = (l :: ls).length) := by
        cases ls with
        | nil => rfl
        | cons _ _ => simp
      rw [← lone]
      rfl
    | succ j =>
      have later := ih (i + 1) (j := j) (by simpa using h)
      have place : i + 1 + j = i + (j + 1) := by omega
      have flag : decide (j + 1 = ls.length) = decide (j + 1 + 1 = (l :: ls).length) :=
        decide_eq_decide.mpr (by rw [List.length_cons]; omega)
      rw [place, flag] at later
      exact later

/-- A member's entry after its copy is queued (R138, R144). -/
theorem Board.receiveCopy_eq (e : Board) (clock : Nat) (frames : List Frame) : e.receiveCopy clock frames = { e with
    outstanding := e.outstanding + 1
    txQueue := e.txQueue ++ frames
    ackTimer :=
      if e.outstanding = 0 then some ⟨clock, clock + (100 * e.ackBase + 4 * e.roundTrip)⟩ else e.ackTimer } := by
  unfold Board.receiveCopy
  by_cases none : e.outstanding = 0
  · simp only [if_pos none]
    rfl
  · simp only [if_neg none]

/-- Settles O19: the cutting of one copy, and the copies of a set. -/
theorem copiesAreCutAndSentToEveryMember : Obligations.CopiesAreCutAndSentToEveryMember := by
  constructor
  · intro kind seq time c l hc
    have cut := cutWell_cutInto hc (le_refl l.length)
    refine ⟨cutInto c l.length l, cutInto_ne_nil c _ l, cutInto_flatten c _ l, cut.full, cut.last, cut.some,
      numberParts_length .., fun i hi => ?_⟩
    rw [copyFrames, numberParts_getElem _ _ _ _ _ hi, Nat.zero_add]
  · intro s kind time entries
    refine ⟨_, s.deliver_eq kind time entries, fun b => ⟨fun outside => ?_, fun c member capacity => ?_⟩⟩
    · have out : ¬ (s.board b).member = true := by simp [outside]
      exact (s.board_deliver kind time entries b).trans (if_neg out)
    · have size : (s.board b).partSize = c.entries := by simp [Board.partSize, capacity]
      have read := (s.board_deliver kind time entries b).trans (if_pos member)
      rw [Board.receiveCopy_eq, size] at read
      exact read

/-! Replies sent (R122, R163) -/

theorem Frame.exists_reply {t : Tag} {x : Frame} (o : x.occupies t = true) :
    ∃ kind status data, x = .reply t kind status data ∧ status ≠ .slotBusy := by
  cases x <;> simp [Frame.occupies] at o ⊢
  exact ⟨o.1, o.2⟩

theorem Frame.occupies_reply {t : Tag} {kind : BitVec 7} {status : Status} {data : List Byte}
    (known : status ≠ .slotBusy) : Frame.occupies t (.reply t kind status data) = true := by
  simp [Frame.occupies, known]

theorem Frame.occupies_other {t u : Tag} {x : Frame} (o : x.occupies t = true) (ne : u ≠ t) : x.occupies u = false := by
  obtain ⟨kind, status, data, rfl, _⟩ := Frame.exists_reply o
  simp [Frame.occupies, Ne.symm ne]

/-- The head sent leaves the queue, and empties the slot it occupies (R122, R163). -/
theorem Board.sendHead_cons {e : Board} {x : Frame} {fs : List Frame} (h : e.txQueue = x :: fs) :
    ∃ slots : Vector BoardSlot 2, e.sendHead = { e with txQueue := fs, slots := slots } ∧
      ∀ u : Tag, slots[u] = if x.occupies u = true then .empty else e.slot u := by
  by_cases o : ∃ t, x.occupies t = true
  · obtain ⟨t, o⟩ := o
    obtain ⟨kind, status, data, rfl, known⟩ := Frame.exists_reply o
    refine ⟨e.slots.set t .empty, Board.sendHead_reply h known, fun u => ?_⟩
    have read : (e.slots.set t BoardSlot.empty)[u] = (e.setSlot t .empty).slot u := rfl
    rw [read, Board.slot_setSlot]
    by_cases same : u = t
    · subst same
      rw [if_pos rfl, if_pos o]
    · rw [if_neg same, if_neg (by simp [Frame.occupies_other o same])]
  · have free : ∀ t, x.occupies t = false := fun t => by
      by_contra k
      exact o ⟨t, by simpa using k⟩
    refine ⟨e.slots, Board.sendHead_slots h free, fun u => ?_⟩
    rw [if_neg (by simp [free u])]
    rfl

/-- The frames up to the reply that occupies slot `tag` are sent: what stands behind it is left, and the slots of the
replies sent are EMPTY (R122, R163). -/
theorem Board.sendThrough_eq {tag : Tag} {ahead behind : List Frame} {x : Frame} (o : x.occupies tag = true)
    (first : ∀ y ∈ ahead, y.occupies tag = false) {n : Nat} {e : Board} (h : e.txQueue = ahead ++ x :: behind)
    (fuel : ahead.length < n) : ∃ slots : Vector BoardSlot 2,
      e.sendThrough tag n = { e with txQueue := behind, slots := slots } ∧ slots[tag] = .empty ∧
      ∀ u, u ≠ tag → slots[u] = if ∃ y ∈ ahead, y.occupies u = true then .empty else e.slot u := by
  induction ahead generalizing n e with
  | nil =>
    obtain ⟨n, rfl⟩ : ∃ m, n = m + 1 := ⟨n - 1, by simp at fuel; omega⟩
    obtain ⟨slots, sent, read⟩ := Board.sendHead_cons h
    refine ⟨slots, ?_, by rw [read tag, if_pos o], fun u ne => ?_⟩
    · rw [← sent]
      simp only [Board.sendThrough, h, List.nil_append, if_pos o]
    · rw [read u, if_neg (by simp [Frame.occupies_other o ne]), if_neg (by simp)]
  | cons y ys ih =>
    obtain ⟨n, rfl⟩ : ∃ m, n = m + 1 := ⟨n - 1, by simp at fuel; omega⟩
    have passed : y.occupies tag = false := first y List.mem_cons_self
    obtain ⟨slots, sent, read⟩ := Board.sendHead_cons h
    obtain ⟨left, rest, empty, others⟩ := ih (fun z hz => first z (List.mem_cons_of_mem y hz)) (n := n)
      (e := { e with txQueue := ys ++ x :: behind, slots := slots }) rfl (by simp at fuel; omega)
    refine ⟨left, ?_, empty, fun u ne => ?_⟩
    · have more : ¬ y.occupies tag = true := by simp [passed]
      simp only [Board.sendThrough, h, List.cons_append, if_neg more]
      rw [sent]
      exact rest
    · have before : Board.slot { e with txQueue := ys ++ x :: behind, slots := slots } u =
        if y.occupies u = true then .empty else e.slot u := read u
      rw [others u ne, before]
      by_cases head : y.occupies u = true
      · simp [head]
      · simp [head]

/-- Settles O24: the replies ahead go with the reply whose end is told. -/
theorem sentRepliesEmptyTheirSlot : Obligations.SentRepliesEmptyTheirSlot := by
  intro s b tag repliesIn
  have replies : ∀ fs u, repliesIn fs u ↔ ∃ y ∈ fs, Frame.occupies u y = true := fun fs u =>
    ⟨fun ⟨kind, status, data, mem, known⟩ => ⟨_, mem, Frame.occupies_reply known⟩, fun ⟨y, mem, o⟩ => by
      obtain ⟨kind, status, data, rfl, known⟩ := Frame.exists_reply o
      exact ⟨kind, status, data, mem, known⟩⟩
  refine ⟨fun ahead behind kind status data slot known queue first => ?_, fun idle => ?_⟩
  · have mine : Frame.occupies tag (.reply tag kind status data) = true := Frame.occupies_reply known
    have queued : (s.board b).replyQueued tag = true := by
      rw [Board.replyQueued, queue]
      simp [mine]
    have unsent : ∀ y ∈ ahead, Frame.occupies tag y = false := fun y hy => by
      by_contra k
      exact first ((replies ahead tag).mpr ⟨y, hy, by simpa using k⟩)
    obtain ⟨slots, sent, empty, others⟩ := Board.sendThrough_eq mine unsent queue
      (n := (s.board b).txQueue.length) (by rw [queue]; simp)
    refine ⟨slots, ?_, empty, fun u ne => ⟨fun gone => ?_, fun stays => ?_⟩⟩
    · simp only [exec, execReplySent, slot, if_pos queued, State.modifyBoard, sent]
    · rw [others u ne, if_pos ((replies ahead u).mp gone)]
    · rw [others u ne, if_neg (mt (replies ahead u).mpr stays)]
  · simp only [exec, execReplySent]
    split
    · rename_i slot
      have unqueued : ¬ (s.board b).replyQueued tag = true := fun k =>
        (idle.resolve_left (not_not_intro slot)) ((replies _ tag).mpr (List.any_eq_true.mp k))
      rw [if_neg unqueued]
    all_goals rfl

/-! The arbiter (R166, R167) -/

section Arbiter
variable {s : State} {b : BoardNo}

/-- Where the service does not go first, the board that the search finds is granted (R166). -/
theorem State.nextGrant_board (yields : (∃ code params, s.slot = .waiting code params) → s.escalationE ≤ s.escalation)
    (found : s.nextBoard = some b) : s.nextGrant = s.boardGrant b := by
  unfold State.nextGrant
  rw [found]
  cases slot : s.slot with
  | empty => rfl
  | done code status data => rfl
  | waiting code params => exact if_neg (by have := yields ⟨code, params, slot⟩; omega)

theorem State.nextBoard_of_waits (waits : ∃ b, (s.board b).waitingTag ≠ none) : ∃ b, s.nextBoard = some b := by
  cases found : s.nextBoard with
  | some b => exact ⟨b, rfl⟩
  | none =>
    obtain ⟨b, h⟩ := waits
    exact absurd (State.nextBoard_none.mp found b) h

/-- The search begins at the pointer and wraps from 63 to 0 (R167). -/
theorem State.nextBoard_eq {k : Nat} (hk : k < 64) (place : b.val = (s.pointer.val + k) % 64)
    (before : ∀ c : BoardNo, ∀ j, j < k → c.val = (s.pointer.val + j) % 64 → (s.board c).waitingTag = none)
    (waits : (s.board b).waitingTag.isSome = true) : s.nextBoard = some b := by
  have here : s.pointer + ⟨k, hk⟩ = b := Fin.ext (by rw [Fin.val_add, place])
  have found : allBoards.find? (fun i => (s.board (s.pointer + i)).waitingTag.isSome) = some ⟨k, hk⟩ := by
    rw [allBoards, List.find?_eq_some_iff_getElem]
    refine ⟨by rw [here]; exact waits, k, by simpa using hk, by simp, fun j hj => ?_⟩
    have none := before (s.pointer + ⟨j, by omega⟩) j hj (Fin.val_add _ _)
    simp [none]
  have search : (fun i => (s.board (s.pointer + i)).waitingTag.isSome) =
    (fun c => (s.board c).waitingTag.isSome) ∘ fun i => s.pointer + i := rfl
  rw [State.nextBoard, List.find?_map, ← search, found, Option.map_some, here]

theorem State.boardGrant_eq {t : Tag} {kind : BitVec 7} {params : List Byte} (turn : (s.board b).waitingTag = some t)
    (slot : (s.board b).slot t = .waiting kind params) :
    s.boardGrant b = some ⟨.board b t, kind.setWidth 8, params, b + 1, 0⟩ := by
  simp only [State.boardGrant, turn, slot]

theorem Board.waitingTag_first {e : Board} {kind : BitVec 7} {params : List Byte} (slot : e.slot 0 = .waiting kind params) :
    e.waitingTag = some 0 := by
  simp only [Board.waitingTag, slot]

theorem Board.waitingTag_second {e : Board} {kind : BitVec 7} {params : List Byte}
    (free : ∀ kind params, e.slot 0 ≠ .waiting kind params) (slot : e.slot 1 = .waiting kind params) :
    e.waitingTag = some 1 := by
  unfold Board.waitingTag
  rw [slot]
  split
  · rename_i first
    exact absurd first (free _ _)
  · rfl
  · rename_i other
    exact absurd rfl (other _ _)

end Arbiter

/-- Settles O25: the service's turn and the boards', and the board whose turn it is. -/
theorem theArbiterChoosesTheNextGrant : Obligations.TheArbiterChoosesTheNextGrant := by
  refine ⟨fun s code params => ⟨fun slot none => ?_, fun slot waits room => ?_, fun yields waits => ?_,
    fun slot none => ?_⟩, fun s b kind0 kind1 params0 params1 k hk place before yields => ⟨fun first => ?_,
    fun free second => ?_⟩⟩
  · simp only [State.nextGrant, slot, State.nextBoard_none.mpr none]
  · obtain ⟨b, found⟩ := State.nextBoard_of_waits waits
    simp only [State.nextGrant, slot, found, if_pos room]
  · obtain ⟨b, found⟩ := State.nextBoard_of_waits waits
    obtain ⟨t, turn⟩ := State.nextBoard_waits found
    obtain ⟨kind, params, _, granted⟩ := State.boardGrant_of_waiting turn
    exact ⟨b, t, _, (State.nextGrant_board yields found).trans granted, rfl, rfl⟩
  · simp only [State.nextGrant, State.nextBoard_none.mpr none]
    split
    · rename_i waiting _
      exact absurd waiting (slot _ _)
    all_goals simp_all
  · have turn := Board.waitingTag_first first
    have found := State.nextBoard_eq hk place before (by simp [turn])
    rw [State.nextGrant_board yields found, State.boardGrant_eq turn first]
  · have turn := Board.waitingTag_second free second
    have found := State.nextBoard_eq hk place before (by simp [turn])
    rw [State.nextGrant_board yields found, State.boardGrant_eq turn second]

theorem State.queueNotice_eq (s : State) (n : Notice) (dest : BoardSet) :
    s.queueNotice n dest = { s with boards := (s.queueNotice n dest).boards } := by
  simp only [State.queueNotice, State.mapBoards]

/-- Settles O26: a reply by its requester, a notice by the boards of its set. -/
theorem repliesAndNoticesAreQueued : Obligations.RepliesAndNoticesAreQueued := by
  intro s g status data n dest
  refine ⟨fun service => ?_, fun b t board => ?_, _, s.queueNotice_eq n dest, fun b => ⟨fun told => ?_, fun untold => ?_⟩⟩
  · simp only [State.putReply, service]
  · simp only [State.putReply, board]
    rfl
  · exact (s.board_queueNotice n dest b).trans (if_pos (by simpa [Board.isLinked] using told))
  · exact (s.board_queueNotice n dest b).trans (if_neg (by simpa [Board.isLinked] using untold))

end Sys2Proof.Machine
end

section
/-! SUPPORT. What the record requests check first (R22, R23), the readers of their parameters, and the first edges: the
statements O31 and O35. -/

namespace Sys2Proof.Machine

open Sys2Proof.Safety

section Grants
variable {s : State} {g : Grant} {k : RecordKind} {params : List Byte} {c : Instr}
  {body : Owner → List Byte → State → Taken}

/-- A granted request that its body refuses changes no record and originates no notice (R23). -/
theorem exec_refused {status : Status} (form : exec c s = s.grantOf k body) (h : NextRequest s g k params)
    (e : body g.requester.owner params (s.moveArbiter g) = (s.moveArbiter g).refuse status) :
    exec c s = .next (granted s g id status [] []) := by
  rw [form]
  exact State.grantOf_next h e

theorem Requester.owner_service {r : Requester} (h : r = .service) : r.owner = .service := by
  rw [h]
  rfl

theorem Requester.owner_board {r : Requester} (h : r ≠ .service) : ∃ b, r.owner = .board b := by
  cases r with
  | service => exact absurd rfl h
  | board b t => exact ⟨b, rfl⟩

end Grants

/-! Requests that carry one domain number and ask for its owner's rights (R22, R23) -/

/-- The checks of START, RESUME, PAUSE, RETIRE and CANCEL before `k` takes the record. -/
def State.takeOwned (s : State) (who : Owner) (params : List Byte) (k : DomainNo → Domain → Taken) : Taken :=
  match parseDomain params with
  | none => s.refuse .badParam
  | some d => s.withOwned who d (k d)

/-- The commands whose checks begin with `State.takeOwned`. -/
theorem exec_takeOwned {k : RecordKind} {c : Instr}
    (row : (k, c) ∈ [(RecordKind.start, Instr.start), (.resume, .resume), (.pause, .pause), (.retire, .retire),
      (.cancel, .cancel)]) :
    ∃ f : Owner → State → DomainNo → Domain → Taken,
      ∀ s, exec c s = s.grantOf k fun who params a => a.takeOwned who params (f who a) := by
  simp only [List.mem_cons, Prod.mk.injEq, List.not_mem_nil, or_false] at row
  rcases row with ⟨rfl, rfl⟩ | ⟨rfl, rfl⟩ | ⟨rfl, rfl⟩ | ⟨rfl, rfl⟩ | ⟨rfl, rfl⟩
  all_goals exact ⟨_, fun _ => rfl⟩

section Owned
variable {s : State} {who : Owner} {params : List Byte} {x : Byte} {d : DomainNo} {r : Domain}
  {k : DomainNo → Domain → Taken}

theorem State.takeOwned_badParam (h : parseDomain params = none) : s.takeOwned who params k = s.refuse .badParam := by
  simp only [State.takeOwned, h]

theorem State.takeOwned_noSuch (hx : x.toNat = d.val) (free : s.domain d = none) :
    s.takeOwned who [x] k = s.refuse .noSuch := by
  simp only [State.takeOwned, parseDomain_of_val hx, State.withOwned_free free]

theorem State.takeOwned_denied (hx : x.toNat = d.val) (record : s.domain d = some r)
    (rights : ¬ (who = .service ∨ who = r.owner)) : s.takeOwned who [x] k = s.refuse .denied := by
  simp only [State.takeOwned, parseDomain_of_val hx, State.withOwned_denied record rights]

theorem State.takeOwned_allowed (hx : x.toNat = d.val) (record : s.domain d = some r)
    (rights : who = .service ∨ who = r.owner) : s.takeOwned who [x] k = k d r := by
  simp only [State.takeOwned, parseDomain_of_val hx, State.withOwned_allowed record rights]

end Owned

/-! ATTACH and DETACH (R33, R34) -/

/-- The checks of ATTACH and DETACH before `k` takes the record. -/
def State.takeSubscription (s : State) (who : Owner) (params : List Byte) (k : DomainNo → BoardNo → Domain → Taken) :
    Taken :=
  match parseSubscription who params with
  | none => s.refuse .badParam
  | some (d, b) => s.withRecord d (k d b)

theorem exec_takeSubscription {k : RecordKind} {c : Instr}
    (row : (k, c) ∈ [(RecordKind.attach, Instr.attach), (.detach, .detach)]) :
    ∃ f : Owner → State → DomainNo → BoardNo → Domain → Taken,
      ∀ s, exec c s = s.grantOf k fun who params a => a.takeSubscription who params (f who a) := by
  simp only [List.mem_cons, Prod.mk.injEq, List.not_mem_nil, or_false] at row
  rcases row with ⟨rfl, rfl⟩ | ⟨rfl, rfl⟩
  all_goals exact ⟨_, fun _ => rfl⟩

section Subscriptions
variable {s : State} {who : Owner} {params : List Byte} {x y : Byte} {d : DomainNo} {b : BoardNo} {r : Domain}
  {k : DomainNo → BoardNo → Domain → Taken}

theorem parseSubscription_service_length (h : params.length ≠ 2) : parseSubscription .service params = none := by
  unfold parseSubscription
  split
  · simp at h
  · contradiction
  · rfl

theorem parseSubscription_board_length (h : params.length ≠ 1) : parseSubscription (.board b) params = none := by
  unfold parseSubscription
  split
  · contradiction
  · simp at h
  · rfl

theorem parseSubscription_service (hx : x.toNat = d.val) (hy : y.toNat = b.val) :
    parseSubscription .service [x, y] = some (d, b) := by
  simp only [parseSubscription, domainOf_of_val hx, boardOf_of_val hy]

theorem parseSubscription_service_none (h : 48 ≤ x.toNat ∨ 64 ≤ y.toNat) : parseSubscription .service [x, y] = none := by
  rcases h with hx | hy
  · simp only [parseSubscription, domainOf_of_ge hx]
  · simp only [parseSubscription, boardOf_of_ge hy]
    split
    · contradiction
    · rfl

theorem parseSubscription_board (hx : x.toNat = d.val) : parseSubscription (.board b) [x] = some (d, b) := by
  simp only [parseSubscription, domainOf_of_val hx, Option.map_some]

theorem parseSubscription_board_none (hx : 48 ≤ x.toNat) : parseSubscription (.board b) [x] = none := by
  simp only [parseSubscription, domainOf_of_ge hx, Option.map_none]

theorem State.takeSubscription_badParam (h : parseSubscription who params = none) :
    s.takeSubscription who params k = s.refuse .badParam := by
  simp only [State.takeSubscription, h]

theorem State.takeSubscription_noSuch (h : parseSubscription who params = some (d, b)) (free : s.domain d = none) :
    s.takeSubscription who params k = s.refuse .noSuch := by
  simp only [State.takeSubscription, h, State.withRecord_free free]

theorem State.takeSubscription_some (h : parseSubscription who params = some (d, b)) (record : s.domain d = some r) :
    s.takeSubscription who params k = k d b r := by
  simp only [State.takeSubscription, h, State.withRecord_some record]

end Subscriptions

/-! REVISE's reader (R48, R184, R185) -/

theorem parseRevise_of_length {params : List Byte} (h : params.length ≠ 9) : parseRevise params = none := by
  unfold parseRevise
  split
  · simp at h
  · rfl

section Revise
variable {x p1 p2 h1 h2 present f1 f2 gap : Byte}

/-- The range of REVISE's values as R48 gives it: those that a period bounds are checked where one is carried. -/
def ReviseInRange (period high phase : Nat) (present : Byte) : Prop :=
  present.toNat ≤ 1 ∧ (period ≠ 0 → 2 ≤ period ∧ high < period ∧ (present.toNat = 1 → phase < period))

theorem byte_le_one {y : Byte} : y.toNat ≤ 1 ↔ y = 0x00#8 ∨ y = 0x01#8 := by
  constructor
  · intro h
    have cases : y.toNat = 0 ∨ y.toNat = 1 := by omega
    exact cases.imp (fun h => BitVec.eq_of_toNat_eq h) fun h => BitVec.eq_of_toNat_eq h
  · rintro (rfl | rfl) <;> decide

theorem byte_eq_one {y : Byte} : y.toNat = 1 ↔ y = 0x01#8 :=
  ⟨fun h => BitVec.eq_of_toNat_eq h, fun h => by rw [h]; rfl⟩

theorem reviseInRange_iff {period high phase : Nat} (flag : present.toNat ≤ 1) :
    reviseInRange period high (if present = 0x01#8 then some phase else none) = true ↔
      ReviseInRange period high phase present := by
  rw [reviseInRange, decide_eq_true_eq, ReviseInRange, byte_eq_one]
  by_cases carried : present = 0x01#8
  · rw [if_pos carried]
    simp only [Option.mem_some_iff, forall_eq', carried, forall_const]
    have one : (0x01#8 : Byte).toNat ≤ 1 := by decide
    omega
  · rw [if_neg carried]
    simp only [Option.mem_def, reduceCtorEq, false_imp_iff, implies_true, and_true, carried]
    omega

theorem parseRevise_none (h : 48 ≤ x.toNat ∨ ¬ ReviseInRange (p1.toNat * 256 + p2.toNat) (h1.toNat * 256 + h2.toNat)
    (f1.toNat * 256 + f2.toNat) present) : parseRevise [x, p1, p2, h1, h2, present, f1, f2, gap] = none := by
  unfold parseRevise
  dsimp only
  rcases h with hx | range
  · simp only [domainOf_of_ge hx]
  · split
    · rfl
    · split
      · rename_i flag
        have out := mt (reviseInRange_iff (byte_le_one.mpr flag)).mp range
        rw [Bytes.toNat_two, Bytes.toNat_two, Bytes.toNat_two, if_neg out]
      · rfl

theorem parseRevise_some {d : DomainNo} (hx : x.toNat = d.val)
    (h : ReviseInRange (p1.toNat * 256 + p2.toNat) (h1.toNat * 256 + h2.toNat) (f1.toNat * 256 + f2.toNat) present) :
    parseRevise [x, p1, p2, h1, h2, present, f1, f2, gap] = some ⟨d, p1.toNat * 256 + p2.toNat, h1.toNat * 256 + h2.toNat,
      if present = 0x01#8 then some (f1.toNat * 256 + f2.toNat) else none, gap.toNat⟩ := by
  have flag := byte_le_one.mp h.1
  have range := (reviseInRange_iff h.1).mpr h
  simp only [parseRevise, domainOf_of_val hx, if_pos flag, Bytes.toNat_two, if_pos range]

end Revise

/-- Settles O35: the checks each request begins with, and the unknown kind. -/
theorem requestsAreCheckedInOrder : Obligations.RequestsAreCheckedInOrder := by
  refine fun s g => ⟨fun k c row => ?_, fun k c row => ?_, fun params h => ?_, fun next unknown => ?_⟩
  · obtain ⟨f, form⟩ := exec_takeOwned row
    refine ⟨fun params h length => ?_, fun x h => ⟨fun hx => ?_, fun d hx free => ?_, fun d r hx record rights => ?_⟩⟩
    · exact exec_refused (form s) h (State.takeOwned_badParam (parseDomain_of_length length))
    · exact exec_refused (form s) h (State.takeOwned_badParam (parseDomain_of_ge hx))
    · exact exec_refused (form s) h (State.takeOwned_noSuch (s := s.moveArbiter g) hx free)
    · exact exec_refused (form s) h (State.takeOwned_denied (s := s.moveArbiter g) hx record rights)
  · obtain ⟨f, form⟩ := exec_takeSubscription row
    refine ⟨fun params h length => ?_, fun x y h service => ⟨fun out => ?_, fun d hx hy free => ?_⟩,
      fun x h board => ⟨fun out => ?_, fun d hx free => ?_⟩⟩
    · refine exec_refused (form s) h (State.takeSubscription_badParam ?_)
      by_cases service : g.requester = .service
      · rw [if_pos service] at length
        rw [Requester.owner_service service, parseSubscription_service_length length]
      · rw [if_neg service] at length
        obtain ⟨b, owner⟩ := Requester.owner_board service
        rw [owner, parseSubscription_board_length length]
    · refine exec_refused (form s) h (State.takeSubscription_badParam ?_)
      rw [Requester.owner_service service, parseSubscription_service_none out]
    · have read : parseSubscription g.requester.owner [x, y] = some (d, ⟨y.toNat, hy⟩) := by
        rw [Requester.owner_service service, parseSubscription_service (b := ⟨y.toNat, hy⟩) hx rfl]
      exact exec_refused (form s) h (State.takeSubscription_noSuch (s := s.moveArbiter g) read free)
    · obtain ⟨b, owner⟩ := Requester.owner_board board
      refine exec_refused (form s) h (State.takeSubscription_badParam ?_)
      rw [owner, parseSubscription_board_none out]
    · obtain ⟨b, owner⟩ := Requester.owner_board board
      have read : parseSubscription g.requester.owner [x] = some (d, b) := by
        rw [owner, parseSubscription_board hx]
      exact exec_refused (form s) h (State.takeSubscription_noSuch (s := s.moveArbiter g) read free)
  · have bad : parseRevise params = none → exec .revise s = .next (granted s g id .badParam [] []) := fun read =>
      exec_refused rfl h (by simp only [takeRevise, read])
    refine ⟨fun length => bad (parseRevise_of_length length), fun x p1 p2 h1 h2 present f1 f2 gap form => ?_⟩
    subst form
    refine ⟨fun out => bad (parseRevise_none out), fun d hx range => ⟨fun free => ?_, fun r record rights => ?_⟩⟩
    · refine exec_refused rfl h ?_
      simp only [takeRevise, parseRevise_some hx range]
      exact State.withOwned_free (s := s.moveArbiter g) free
    · refine exec_refused rfl h ?_
      simp only [takeRevise, parseRevise_some hx range]
      exact State.withOwned_denied (s := s.moveArbiter g) record rights
  · simp only [exec, execUnknownRequestKind, next, if_pos unknown]
    rfl

/-! First edges (R6, R10) -/

/-- The instant that `firstAtOrAfter` gives is the earliest of its residue from the bound on (R6, R10). -/
theorem firstAtOrAfter_earliest (bound residue : Nat) {period : Nat} (h : 0 < period) :
    bound ≤ firstAtOrAfter bound residue period ∧ firstAtOrAfter bound residue period % period = residue % period ∧
      ∀ u, bound ≤ u → u % period = residue % period → firstAtOrAfter bound residue period ≤ u :=
  ⟨le_firstAtOrAfter .., firstAtOrAfter_mod _ _ h, fun _ => firstAtOrAfter_least _ _ h⟩

/-- Settles O31: each kind's first edge is one `firstAtOrAfter`. -/
theorem firstEdgesAreTheEarliest : Obligations.FirstEdgesAreTheEarliest := by
  intro s d r earliest
  refine ⟨fun p source hp park => ?_, fun p source hp park => ?_, fun c parent p source record kind hp level => ?_,
    fun c parent p e source record kind hp level next => ?_⟩
  · refine ⟨_, by simp only [State.firstEdge, source, Primary.firstEdge, park], firstAtOrAfter_earliest _ _ hp, ?_⟩
    have := firstAtOrAfter_lt (s.time + 1) p.phase hp
    omega
  · refine ⟨_, by simp only [State.firstEdge, source, Primary.firstEdge, park], firstAtOrAfter_earliest _ _ hp, ?_⟩
    have := firstAtOrAfter_lt (s.time + 1) (p.phase + p.high) hp
    omega
  · have found := State.parentOf_eq record kind
    exact ⟨_, by simp only [State.firstEdge, source, found, Companion.firstEdge, State.startBound, level],
      firstAtOrAfter_earliest _ _ hp⟩
  · have found := State.parentOf_eq record kind
    exact ⟨_, by simp only [State.firstEdge, source, found, Companion.firstEdge, State.startBound, level, next],
      firstAtOrAfter_earliest _ _ hp⟩

end Sys2Proof.Machine
end

section
/-! SUPPORT. The record requests as the Domain Table takes them: the statements O27, O28, O29 and O30. -/

namespace Sys2Proof.Machine

open Sys2Proof.Safety

/-- A granted request that its body takes (R24, R165). -/
theorem exec_taken {s : State} {g : Grant} {k : RecordKind} {params : List Byte} {c : Instr}
    {body : Owner → List Byte → State → Taken} {effect : State → State} {status : Status} {data : List Byte}
    {notices : List (Notice × BoardSet)} (form : exec c s = s.grantOf k body) (h : NextRequest s g k params)
    (e : body g.requester.owner params (s.moveArbiter g) = ⟨effect (s.moveArbiter g), status, data, notices⟩) :
    exec c s = .next (granted s g effect status data notices) := by
  rw [form]
  exact State.grantOf_next h e

/-! CREATE (R25 to R27) -/

theorem Domain.stopping_iff {r : Domain} :
    r.stopping = true ↔ (∃ reason, r.life = .active (.pause reason)) ∨ r.life = .active .retire := by
  unfold Domain.stopping
  split <;> simp_all

theorem gapOk_iff {period high gap : Nat} : gapOk period high gap = true ↔ high + 2 * gap + 1 ≤ period := by
  rw [gapOk, decide_eq_true_eq]

/-- The gap of a companion against its parent's values, in force and pending (R27 step 7, R48). -/
theorem gapFitsParent_iff {parent : Domain} {p : Primary} {gap : Nat} : gapFitsParent parent p gap = true ↔
    p.high + 2 * gap + 1 ≤ p.period ∧
      ∀ period high, parent.life = .active (.revisePrimary period high) → high + 2 * gap + 1 ≤ period := by
  rw [gapFitsParent, Bool.and_eq_true, gapOk_iff]
  refine and_congr_right fun _ => ?_
  split
  · rename_i period high pending
    rw [gapOk_iff]
    exact ⟨fun h _ _ same => by rw [pending] at same; cases same; exact h, fun h => h period high pending⟩
  · rename_i other
    exact ⟨fun _ period high pending => absurd pending (other period high), fun _ => rfl⟩

section Create
variable {s : State} {who : Owner} {params : List Byte} {q : CreateParams} {d : DomainNo} {c : Companion}
  {parent : Domain} {p : Primary} {status : Status}

theorem takeCreate_badParam (read : parseCreate params = none) : takeCreate who params s = s.refuse .badParam := by
  simp only [takeCreate, read]

theorem takeCreate_tableFull (read : parseCreate params = some q) (full : ∀ d, s.domain d ≠ none) :
    takeCreate who params s = s.refuse .tableFull := by
  simp only [takeCreate, read, State.lowestFree_none full]

theorem takeCreate_duplicate (read : parseCreate params = some q) (free : ∃ d, s.domain d = none)
    (held : ∃ d r, s.domain d = some r ∧ r.label = q.label) : takeCreate who params s = s.refuse .duplicate := by
  obtain ⟨d, lowest⟩ := State.lowestFree_isSome free
  simp only [takeCreate, read, lowest, if_pos (State.findLabel_isSome held)]

theorem takeCreate_unique (read : parseCreate params = some q) (lowest : s.lowestFree = some d)
    (unique : ∀ e r, s.domain e = some r → r.label ≠ q.label) : takeCreate who params s =
      match s.sourceCheck q.source with
      | some status => s.refuse status
      | none => ⟨s.allocate d q who, .ok, [DomainNo.byte d], []⟩ := by
  have new : ¬ (s.findLabel q.label).isSome = true := by simp [State.findLabel_none unique]
  simp only [takeCreate, read, lowest, if_neg new] <;> rfl

/-- The check of a companion's parent that fails first (R27 steps 4 to 7). -/
theorem takeCreate_refused (read : parseCreate params = some q) (free : ∃ d, s.domain d = none)
    (unique : ∀ e r, s.domain e = some r → r.label ≠ q.label) (source : q.source = .companion c)
    (check : s.companionCheck c = some status) : takeCreate who params s = s.refuse status := by
  obtain ⟨d, lowest⟩ := State.lowestFree_isSome free
  rw [takeCreate_unique read lowest unique, source]
  simp only [State.sourceCheck, check]

theorem State.companionCheck_noSuch (free : s.domain c.parent = none) : s.companionCheck c = some .noSuch := by
  simp only [State.companionCheck, free]

theorem State.companionCheck_wrongState (record : s.domain c.parent = some parent)
    (wrong : (∃ x, parent.source = .companion x) ∨ parent.companionNo ≠ none) :
    s.companionCheck c = some .wrongState := by
  simp only [State.companionCheck, record]
  cases source : parent.source with
  | companion x => rfl
  | primary p =>
    have taken : p.companion ≠ none := by
      rcases wrong with ⟨x, other⟩ | taken
      · rw [source] at other
        exact nomatch other
      · simpa only [Domain.companionNo, source] using taken
    exact if_pos taken

theorem State.companionCheck_primary (record : s.domain c.parent = some parent) (source : parent.source = .primary p)
    (alone : p.companion = none) : s.companionCheck c =
      if parent.stopping then some .parentIdle
      else if gapFitsParent parent p c.gap = false then some .gap
      else none := by
  simp only [State.companionCheck, record, source, if_neg (not_not_intro alone)]

theorem State.allocate_companion (source : q.source = .companion c) (record : s.domain c.parent = some parent)
    (kind : parent.source = .primary p) : s.allocate d q who =
      (s.setDomain c.parent (some { parent with source := .primary { p with companion := some d } })).setDomain d
        (some (q.record who)) := by
  simp only [State.allocate, source, State.modifyDomain, record, Option.map_some, Domain.withCompanion, kind]

end Create

/-! CREATE's reader (R27 step 1, R184, R185) -/

theorem parseCreate_of_length {params : List Byte} (h : params.length ≠ 17) : parseCreate params = none := by
  unfold parseCreate
  split
  · simp at h
  · rfl

section CreateReader
variable {l1 l2 kind p1 p2 h1 h2 f1 f2 park parent gap action c1 c2 c3 c4 : Byte}

/-- The stop setting of an action code and a count that go together (R185). -/
def stopSetting (action : Byte) (count : Nat) : Option StopSetting :=
  if action = 0x01#8 then some ⟨count, .pauseDomain⟩
  else if action = 0x02#8 then some ⟨count, .stopCabinet⟩
  else if action = 0x03#8 then some ⟨count, .notify⟩
  else none

theorem stopOf_eq {count : Nat} (h : action = 0x00#8 ∧ count = 0 ∨ 1 ≤ action.toNat ∧ action.toNat ≤ 3 ∧ 0 < count) :
    stopOf action count = some (stopSetting action count) := by
  rcases h with ⟨rfl, rfl⟩ | ⟨least, most, positive⟩
  · rfl
  · obtain ⟨a, rfl⟩ := StopAction.exists_byte least most
    rw [stopOf_byte a positive]
    cases a <;> rfl

theorem primaryOf_some {period high phase : Nat}
    (h : 2 ≤ period ∧ 1 ≤ high ∧ high < period ∧ phase < period ∧ park.toNat ≤ 1) :
    primaryOf period high phase park =
      some (.primary ⟨period, high, phase, if park = 0x01#8 then .high else .low, none⟩) := by
  obtain ⟨least, positive, below, within, level⟩ := h
  have range : 2 ≤ period ∧ 1 ≤ high ∧ high < period ∧ phase < period := ⟨least, positive, below, within⟩
  rcases byte_le_one.mp level with rfl | rfl <;> exact if_pos range

theorem primaryOf_none {period high phase : Nat}
    (h : ¬ (2 ≤ period ∧ 1 ≤ high ∧ high < period ∧ phase < period ∧ park.toNat ≤ 1)) :
    primaryOf period high phase park = none := by
  unfold primaryOf
  split
  · rfl
  · rename_i level read
    have one : park.toNat ≤ 1 := by
      rw [byte_le_one]
      unfold Level.ofByte at read
      split_ifs at read with low high
      · exact .inl low
      · exact .inr high
    exact if_neg fun ⟨least, positive, below, within⟩ => h ⟨least, positive, below, within, one⟩

theorem companionOf_none (h : 48 ≤ parent.toNat ∨ gap = 0x00#8) : companionOf parent gap = none := by
  unfold companionOf
  split
  · rfl
  · rename_i d read
    rcases h with out | zero
    · rw [domainOf_of_ge out] at read
      exact nomatch read
    · exact if_pos zero

theorem companionOf_some {d : DomainNo} (hp : parent.toNat = d.val) (hg : 1 ≤ gap.toNat) :
    companionOf parent gap = some (.companion ⟨d, gap.toNat⟩) := by
  have carried : gap ≠ 0x00#8 := by
    rintro rfl
    exact absurd hg (by decide)
  simp only [companionOf, domainOf_of_val hp, if_neg carried]

/-- The fields of the kind that CREATE's kind byte names. -/
def createSource (kind : Byte) (period high phase : Nat) (park parent gap : Byte) : Option Source :=
  if kind = 0x00#8 then primaryOf period high phase park
  else if kind = 0x01#8 then companionOf parent gap
  else none

theorem createSource_companion {period high phase : Nat} (h : kind = 0x01#8) :
    createSource kind period high phase park parent gap = companionOf parent gap := by
  rw [h]
  rfl

theorem createSource_none {period high phase : Nat} (h : 2 ≤ kind.toNat) :
    createSource kind period high phase park parent gap = none := by
  have zero : ¬ kind = 0x00#8 := by rintro rfl; exact absurd h (by decide)
  have one : ¬ kind = 0x01#8 := by rintro rfl; exact absurd h (by decide)
  rw [createSource, if_neg zero, if_neg one]

/-- The label and the stop setting of a CREATE in their ranges: the fields of the kind decide (R27 step 1). -/
theorem parseCreate_common (label : l1.toNat * 256 + l2.toNat ≠ 0)
    (stop : action = 0x00#8 ∧ ((c1.toNat * 256 + c2.toNat) * 256 + c3.toNat) * 256 + c4.toNat = 0 ∨
      1 ≤ action.toNat ∧ action.toNat ≤ 3 ∧ 0 < ((c1.toNat * 256 + c2.toNat) * 256 + c3.toNat) * 256 + c4.toNat) :
    parseCreate [l1, l2, kind, p1, p2, h1, h2, f1, f2, park, parent, gap, action, c1, c2, c3, c4] =
      (createSource kind (p1.toNat * 256 + p2.toNat) (h1.toNat * 256 + h2.toNat) (f1.toNat * 256 + f2.toNat) park parent
        gap).map fun src => ⟨l1.toNat * 256 + l2.toNat, src,
          stopSetting action (((c1.toNat * 256 + c2.toNat) * 256 + c3.toNat) * 256 + c4.toNat)⟩ := by
  simp only [parseCreate, Bytes.toNat_two, Bytes.toNat_four, stopOf_eq stop, if_neg label]
  rfl

theorem parseCreate_none (h : ¬ (l1.toNat * 256 + l2.toNat ≠ 0 ∧
    (action = 0x00#8 ∧ ((c1.toNat * 256 + c2.toNat) * 256 + c3.toNat) * 256 + c4.toNat = 0 ∨
      1 ≤ action.toNat ∧ action.toNat ≤ 3 ∧ 0 < ((c1.toNat * 256 + c2.toNat) * 256 + c3.toNat) * 256 + c4.toNat))) :
    parseCreate [l1, l2, kind, p1, p2, h1, h2, f1, f2, park, parent, gap, action, c1, c2, c3, c4] = none := by
  simp only [parseCreate, Bytes.toNat_two, Bytes.toNat_four]
  split
  · rfl
  · rename_i setting read
    have stop := stopOf_isSome_iff.mp ⟨setting, read⟩
    refine if_pos ?_
    by_contra label
    exact h ⟨label, stop⟩

end CreateReader

/-- CREATE's parameters, as O27 (3) reads them. -/
theorem parseCreate_cases (l1 l2 kind p1 p2 h1 h2 f1 f2 park parent gap action c1 c2 c3 c4 : Byte) :
    let read := parseCreate [l1, l2, kind, p1, p2, h1, h2, f1, f2, park, parent, gap, action, c1, c2, c3, c4]
    let label := l1.toNat * 256 + l2.toNat
    let period := p1.toNat * 256 + p2.toNat
    let high := h1.toNat * 256 + h2.toNat
    let phase := f1.toNat * 256 + f2.toNat
    let count := ((c1.toNat * 256 + c2.toNat) * 256 + c3.toNat) * 256 + c4.toNat
    let common := label ≠ 0 ∧ (action = 0x00#8 ∧ count = 0 ∨ 1 ≤ action.toNat ∧ action.toNat ≤ 3 ∧ 0 < count)
    let primary := 2 ≤ period ∧ 1 ≤ high ∧ high < period ∧ phase < period ∧ park.toNat ≤ 1
    (kind = 0x00#8 → common → primary →
      read = some ⟨label, .primary ⟨period, high, phase, if park = 0x01#8 then .high else .low, none⟩,
        stopSetting action count⟩) ∧
    (∀ d : DomainNo, kind = 0x01#8 → common → parent.toNat = d.val → 1 ≤ gap.toNat →
      read = some ⟨label, .companion ⟨d, gap.toNat⟩, stopSetting action count⟩) ∧
    (¬ common ∨ kind = 0x00#8 ∧ ¬ primary ∨ kind = 0x01#8 ∧ (48 ≤ parent.toNat ∨ gap = 0x00#8) ∨ 2 ≤ kind.toNat →
      read = none) := by
  intro read label period high phase count common primary
  refine ⟨fun hk hc hp => ?_, fun d hk hc hd hg => ?_, fun bad => ?_⟩
  · refine (parseCreate_common hc.1 hc.2).trans ?_
    rw [hk]
    exact congrArg _ (primaryOf_some hp)
  · refine (parseCreate_common hc.1 hc.2).trans ?_
    rw [createSource_companion hk, companionOf_some hd hg]
    rfl
  · by_cases hc : common
    · refine (parseCreate_common hc.1 hc.2).trans ?_
      rcases bad.resolve_left (not_not_intro hc) with ⟨hk, hp⟩ | ⟨hk, hd⟩ | hk
      · rw [hk]
        exact congrArg _ (primaryOf_none hp)
      · rw [createSource_companion hk, companionOf_none hd]
        rfl
      · rw [createSource_none hk]
        rfl
    · exact parseCreate_none hc

/-- Settles O27: the checks of R27 in their order, what a CREATE that passes them allocates, and its reader. -/
theorem createIsCheckedAndTaken : Obligations.CreateIsCheckedAndTaken := by
  refine ⟨?_, ?_, fun params => parseCreate_of_length, parseCreate_cases⟩
  · intro s g params q d h read free lower unique record
    have lowest : (s.moveArbiter g).lowestFree = some d := State.lowestFree_eq free lower
    have checked := takeCreate_unique (s := s.moveArbiter g) (who := g.requester.owner) read lowest unique
    refine ⟨fun p source => exec_taken rfl h ?_, fun c parent p source parentRecord kind alone noPause noRetire fits
      pendingFits => exec_taken rfl h ?_⟩
    · rw [checked]
      obtain ⟨label, src, stop⟩ := q
      subst source
      rfl
    · have goes : parent.stopping = false := by
        rw [Bool.eq_false_iff]
        intro k
        rcases Domain.stopping_iff.mp k with ⟨reason, pause⟩ | retire
        · exact noPause reason pause
        · exact noRetire retire
      have wide : ¬ gapFitsParent parent p c.gap = false := by
        simpa using gapFitsParent_iff.mpr ⟨fits, pendingFits⟩
      have passed : (s.moveArbiter g).sourceCheck q.source = none := by
        rw [source]
        refine (State.companionCheck_primary (s := s.moveArbiter g) parentRecord kind alone).trans ?_
        rw [if_neg (by simp [goes]), if_neg wide]
      rw [checked, passed]
      dsimp only
      rw [State.allocate_companion (s := s.moveArbiter g) source parentRecord kind]
      obtain ⟨label, src, stop⟩ := q
      subst source
      rfl
  · intro s g params h refused
    refine ⟨fun read => exec_refused rfl h (takeCreate_badParam read), fun q read => ⟨fun full => ?_, fun free held => ?_,
      fun c source free unique => ⟨fun absent => ?_, fun parent record => ⟨fun wrong => ?_, fun p kind alone =>
        ⟨fun stopping => ?_, fun goes narrow => ?_⟩⟩⟩⟩⟩
    · exact exec_refused rfl h (takeCreate_tableFull (s := s.moveArbiter g) read full)
    · exact exec_refused rfl h (takeCreate_duplicate (s := s.moveArbiter g) read free held)
    · exact exec_refused rfl h (takeCreate_refused (s := s.moveArbiter g) read free unique source
        (State.companionCheck_noSuch absent))
    · exact exec_refused rfl h (takeCreate_refused (s := s.moveArbiter g) read free unique source
        (State.companionCheck_wrongState record wrong))
    · refine exec_refused rfl h (takeCreate_refused (s := s.moveArbiter g) read free unique source ?_)
      rw [State.companionCheck_primary (s := s.moveArbiter g) record kind alone, if_pos stopping]
    · refine exec_refused rfl h (takeCreate_refused (s := s.moveArbiter g) read free unique source ?_)
      have overlaps : gapFitsParent parent p c.gap = false := by
        rw [Bool.eq_false_iff]
        intro k
        obtain ⟨fits, pendingFits⟩ := gapFitsParent_iff.mp k
        rcases narrow with now | ⟨period, high, pending, later⟩
        · omega
        · have := pendingFits period high pending
          omega
      rw [State.companionCheck_primary (s := s.moveArbiter g) record kind alone, if_neg (by simp [goes]), if_pos overlaps]

/-! Queries (R29 to R32) -/

section Queries
variable {s : State} {who : Owner} {params : List Byte}

theorem parseLabel_of_length (h : params.length ≠ 2) : parseLabel params = none := by
  unfold parseLabel
  split
  · simp at h
  · rfl

theorem parseLabel_zero : parseLabel [0x00#8, 0x00#8] = none := by simp [parseLabel, Bytes.toNat]

theorem parseLabel_some {l1 l2 : Byte} (h : l1.toNat * 256 + l2.toNat ≠ 0) :
    parseLabel [l1, l2] = some (l1.toNat * 256 + l2.toNat) := by
  rw [← Bytes.toNat_two] at h ⊢
  exact if_neg h

theorem parseListFrom_some {x : Byte} (h : x.toNat < 48) : parseListFrom [x] = some x.toNat := if_pos h

theorem parseListFrom_none (h : params.length ≠ 1 ∨ ∃ x : Byte, params = [x] ∧ 48 ≤ x.toNat) :
    parseListFrom params = none := by
  unfold parseListFrom
  split
  · rename_i x
    refine if_neg ?_
    rcases h with length | ⟨y, same, out⟩
    · simp at length
    · cases same
      omega
  · rfl

theorem takeFind_label {label : Nat} (read : parseLabel params = some label) : takeFind who params s =
    match s.findLabel label with
    | none => s.refuse .notFound
    | some d => ⟨s, .ok, [DomainNo.byte d], []⟩ := by
  simp only [takeFind, read] <;> rfl

theorem State.walk_found {start : Nat} {d : DomainNo} {r : Domain} (record : s.domain d = some r) (from_ : start ≤ d.val)
    (least : ∀ e : DomainNo, start ≤ e.val → e.val < d.val → s.domain e = none) :
    s.walk start = ⟨{ s with listCursor := d.val + 1 }, .ok, s.snapshot .service d r, []⟩ := by
  simp only [State.walk, State.nextRecord_eq record from_ least, record]

theorem State.walk_end {start : Nat} (free : ∀ e : DomainNo, start ≤ e.val → s.domain e = none) :
    s.walk start = ⟨{ s with listCursor := 0 }, .endOfList, [], []⟩ := by
  simp only [State.walk, State.nextRecord_none free]

/-- The snapshot does not depend on the arbiter. -/
theorem State.snapshot_moveArbiter (g : Grant) (d : DomainNo) (r : Domain) :
    (s.moveArbiter g).snapshot who d r = s.snapshot who d r := rfl

/-- LIST and LIST FROM of the service walk from their start (R31, R32). -/
theorem exec_list_walks {g : Grant} {c : Instr} {start : Nat} {effect : State → State} {status : Status}
    {data : List Byte}
    (row : NextRequest s g .list params ∧ c = Instr.list ∧ start = s.listCursor ∨
      NextRequest s g .listFrom params ∧ c = .listFrom ∧ ∃ x : Byte, params = [x] ∧ x.toNat < 48 ∧ start = x.toNat)
    (service : g.requester = .service)
    (walk : (s.moveArbiter g).walk start = ⟨effect (s.moveArbiter g), status, data, []⟩) :
    exec c s = .next (granted s g effect status data []) := by
  rcases row with ⟨h, rfl, rfl⟩ | ⟨h, rfl, x, rfl, range, rfl⟩
  · refine exec_taken rfl h ?_
    rw [Requester.owner_service service]
    exact walk
  · refine exec_taken rfl h ?_
    rw [Requester.owner_service service]
    simp only [takeListFrom, parseListFrom_some range]
    exact walk

end Queries

/-- Settles O28: FIND, LOOKUP, and the walk of LIST and LIST FROM. -/
theorem queriesAnswerFromTheTable : Obligations.QueriesAnswerFromTheTable := by
  refine ⟨fun s g params h => ⟨?_, ?_, fun bad => ?_⟩, fun s g => ⟨fun params h length => ?_, fun x h =>
    ⟨fun d r hx record => ?_, fun d hx free => ?_, fun out => ?_⟩⟩, fun s g params =>
      ⟨fun c start row service => ⟨fun d r record from_ least => ?_, fun free => ?_⟩, fun c k length row h b t board => ?_,
        fun h bad => ?_⟩⟩
  · intro l1 l2 d r form label record same only
    subst form
    refine exec_taken (effect := id) rfl h ?_
    have found : (s.moveArbiter g).findLabel (l1.toNat * 256 + l2.toNat) = some d := by
      rw [← same]
      exact State.findLabel_eq record only
    rw [takeFind_label (parseLabel_some label), found]
    rfl
  · intro l1 l2 form label none
    subst form
    refine exec_refused rfl h ?_
    have missing : (s.moveArbiter g).findLabel (l1.toNat * 256 + l2.toNat) = .none := State.findLabel_none none
    rw [takeFind_label (parseLabel_some label), missing]
  · refine exec_refused rfl h ?_
    have read : parseLabel params = none := by
      rcases bad with length | rfl
      · exact parseLabel_of_length length
      · exact parseLabel_zero
    simp only [takeFind, read]
  · exact exec_refused rfl h (by simp only [takeLookup, parseDomain_of_length length])
  · refine exec_taken (effect := id) rfl h ?_
    simp only [takeLookup, parseDomain_of_val hx]
    refine (State.withRecord_some (s := s.moveArbiter g) record).trans ?_
    rw [State.snapshot_moveArbiter]
    rfl
  · refine exec_refused rfl h ?_
    simp only [takeLookup, parseDomain_of_val hx]
    exact State.withRecord_free (s := s.moveArbiter g) free
  · exact exec_refused rfl h (by simp only [takeLookup, parseDomain_of_ge out])
  · exact exec_list_walks row service (State.walk_found (s := s.moveArbiter g) record from_ least)
  · exact exec_list_walks row service (State.walk_end (s := s.moveArbiter g) free)
  · simp only [List.mem_cons, Prod.mk.injEq, List.not_mem_nil, or_false] at row
    have owner : g.requester.owner = .board b := by rw [board]; rfl
    refine ⟨fun right => ?_, fun wrong => ?_⟩
    · rcases row with ⟨rfl, rfl, rfl⟩ | ⟨rfl, rfl, rfl⟩ <;>
        exact exec_refused rfl h (by rw [owner]; exact State.refuseList_of_length right)
    · rcases row with ⟨rfl, rfl, rfl⟩ | ⟨rfl, rfl, rfl⟩ <;>
        exact exec_refused rfl h (by rw [owner]; exact State.refuseList_of_other wrong)
  · refine exec_refused rfl h ?_
    by_cases service : g.requester = .service
    · have read : parseListFrom params = none := parseListFrom_none (bad.imp_right And.right)
      rw [Requester.owner_service service]
      simp only [takeListFrom, read]
    · obtain ⟨b, owner⟩ := Requester.owner_board service
      rw [owner]
      exact State.refuseList_of_other (bad.resolve_right fun k => service k.1)

/-! ATTACH and DETACH (R33 to R35) -/

/-- Settles O29: both requesters read to the same board, and the service's acts are told to it. -/
theorem subscriptionsChangeAtTheTaking : Obligations.SubscriptionsChangeAtTheTaking := by
  intro s g x y d b r params notices hx hy record row data
  obtain ⟨read, told⟩ : parseSubscription g.requester.owner params = some (d, b) ∧
      ∀ n, subscriptionNotice g.requester.owner b n = notices n := by
    rcases row with ⟨service, rfl, rfl⟩ | ⟨⟨t, board⟩, rfl, rfl⟩
    · rw [Requester.owner_service service]
      refine ⟨parseSubscription_service hx hy, fun n => ?_⟩
      simp [subscriptionNotice, onlyBoard, Bits.add]
    · rw [board]
      exact ⟨parseSubscription_board hx, fun n => rfl⟩
  refine ⟨fun h => ⟨fun absent => ?_, fun present => ?_⟩, fun h => ⟨fun present => ?_, fun absent => ?_⟩⟩
  · refine exec_taken rfl h ?_
    rw [← told]
    refine (State.takeSubscription_some (s := s.moveArbiter g) read record).trans ?_
    exact if_neg (by simp [absent])
  · refine exec_refused rfl h ((State.takeSubscription_some (s := s.moveArbiter g) read record).trans ?_)
    exact if_pos present
  · refine exec_taken rfl h ?_
    rw [← told]
    refine (State.takeSubscription_some (s := s.moveArbiter g) read record).trans ?_
    exact if_pos present
  · refine exec_refused rfl h ((State.takeSubscription_some (s := s.moveArbiter g) read record).trans ?_)
    exact if_neg (by simp [absent])

/-! START and RESUME (R37, R38, R54, R55) -/

section Starting
variable {s : State} {who : Owner} {x : Byte} {d : DomainNo} {r : Domain}

theorem State.parentIdle_false (h : ∀ c, r.source = .companion c → ∃ parent, s.domain c.parent = some parent ∧
    parent.isActive = true ∧ parent.stopping = false) : s.parentIdle r = false := by
  unfold State.parentIdle
  split
  · rfl
  · rename_i c source
    obtain ⟨parent, record, active, goes⟩ := h c source
    simp only [record, active, goes, Bool.not_true, Bool.or_false]

theorem State.parentIdle_true {c : Companion} {parent : Domain} (source : r.source = .companion c)
    (record : s.domain c.parent = some parent) (idle : parent.isActive = false ∨ parent.stopping = true) :
    s.parentIdle r = true := by
  simp only [State.parentIdle, source, record]
  rcases idle with h | h <;> simp [h]

theorem takeStart_defined (hx : x.toNat = d.val) (record : s.domain d = some r)
    (rights : who = .service ∨ who = r.owner) (life : r.life = .defined) : takeStart who [x] s =
      if s.parentIdle r then s.refuse .parentIdle
      else
        ⟨(s.setDomain d (some { r with count := 0, life := .active .nothing })).insertEntry (s.firstEdge d r), .ok,
          Bytes.be 8 (s.firstEdge d r).time, [(.started d (s.firstEdge d r).time, r.subscribers)]⟩ := by
  refine (State.takeOwned_allowed hx record rights).trans ?_
  simp only [life]
  rfl

theorem takeResume_paused {reason : PauseReason} (hx : x.toNat = d.val) (record : s.domain d = some r)
    (rights : who = .service ∨ who = r.owner) (life : r.life = .paused reason) : takeResume who [x] s =
      if s.parentIdle r then s.refuse .parentIdle
      else
        ⟨(s.setDomain d (some { r with life := .active .nothing })).insertEntry (s.firstEdge d r), .ok,
          Bytes.be 8 (s.firstEdge d r).time, [(.resumed d (s.firstEdge d r).time, r.subscribers)]⟩ := by
  refine (State.takeOwned_allowed hx record rights).trans ?_
  simp only [life]
  rfl

theorem takeStart_wrongState (hx : x.toNat = d.val) (record : s.domain d = some r)
    (rights : who = .service ∨ who = r.owner) (life : r.life ≠ .defined) :
    takeStart who [x] s = s.refuse .wrongState := by
  refine (State.takeOwned_allowed hx record rights).trans ?_
  cases state : r.life with
  | defined => exact absurd state life
  | active p => rfl
  | paused reason => rfl

theorem takeResume_wrongState (hx : x.toNat = d.val) (record : s.domain d = some r)
    (rights : who = .service ∨ who = r.owner) (life : ∀ reason, r.life ≠ .paused reason) :
    takeResume who [x] s = s.refuse .wrongState := by
  refine (State.takeOwned_allowed hx record rights).trans ?_
  cases state : r.life with
  | defined => rfl
  | active p => rfl
  | paused reason => exact absurd state (life reason)

end Starting

/-- Settles O30, by the record's state and its parent's. -/
theorem startAndResumeAreCheckedAndTaken : Obligations.StartAndResumeAreCheckedAndTaken := by
  refine ⟨fun s g x d r hx record rights parent => ?_, fun s g x d r hx record rights =>
    ⟨fun h life => ?_, fun h life => ?_, fun c parent source parentRecord idle => ?_⟩⟩
  · intro edge
    have goes : ¬ (s.moveArbiter g).parentIdle r = true := by
      simp [State.parentIdle_false (s := s.moveArbiter g) parent]
    refine ⟨fun h life => exec_taken rfl h ?_, fun reason h life => exec_taken rfl h ?_⟩
    · rw [takeStart_defined (s := s.moveArbiter g) hx record rights life, if_neg goes]
      rfl
    · rw [takeResume_paused (s := s.moveArbiter g) hx record rights life, if_neg goes]
      rfl
  · exact exec_refused rfl h (takeStart_wrongState (s := s.moveArbiter g) hx record rights life)
  · exact exec_refused rfl h (takeResume_wrongState (s := s.moveArbiter g) hx record rights life)
  · have idles := State.parentIdle_true (s := s.moveArbiter g) source parentRecord idle
    refine ⟨fun h life => exec_refused rfl h ?_, fun reason h life => exec_refused rfl h ?_⟩
    · rw [takeStart_defined (s := s.moveArbiter g) hx record rights life, if_pos idles]
    · rw [takeResume_paused (s := s.moveArbiter g) hx record rights life, if_pos idles]

end Sys2Proof.Machine
end

section
/-! SUPPORT. REVISE, PAUSE, RETIRE and CANCEL: the statements O32 and O33. -/

namespace Sys2Proof.Machine

open Sys2Proof.Safety

theorem Domain.inactive_iff {r : Domain} :
    r.isActive = false ↔ r.life = .defined ∨ ∃ reason, r.life = .paused reason := by
  unfold Domain.isActive
  cases r.life <;> simp

theorem Domain.active_iff {r : Domain} : r.isActive = true ↔ ∃ p, r.life = .active p := by
  unfold Domain.isActive
  cases r.life <;> simp

/-! The notice and the values of a revision (R7, R11 to R13, R62) -/

section Notices
variable {s : State} {d : DomainNo} {r : Domain} {q : ReviseParams}

theorem State.revisedNotice_primary {p : Primary} (source : r.source = .primary p) :
    s.revisedNotice d r = .revised d r.generation p.period p.high p.phase 0 := by
  simp only [State.revisedNotice, State.wave, source, Domain.gap]

theorem State.revisedNotice_companion {c : Companion} {parent : Domain} {p : Primary} (source : r.source = .companion c)
    (record : s.domain c.parent = some parent) (kind : parent.source = .primary p) :
    s.revisedNotice d r = .revised d r.generation p.period (p.period - p.high - 2 * c.gap)
      ((p.phase + p.high + c.gap) % p.period) c.gap := by
  simp only [State.revisedNotice, State.wave, source, Domain.gap, State.parentOf_eq record kind, Primary.derived]

theorem ReviseParams.applied_primary {p : Primary} (source : r.source = .primary p) : q.applied r = { r with
    source := .primary { p with period := q.period, high := q.high, phase := q.phase.getD (p.phase % q.period) }
    generation := r.generation + 1 } := by
  simp only [ReviseParams.applied, source, Domain.revisePrimary, Domain.phase]

theorem ReviseParams.applied_companion {c : Companion} (source : r.source = .companion c) : q.applied r = { r with
    source := .companion { c with gap := q.gap }
    generation := r.generation + 1 } := by
  simp only [ReviseParams.applied, source, Domain.reviseCompanion]

end Notices

/-! REVISE's checks (R46 to R48) -/

section Revise
variable {s : State} {who : Owner} {params : List Byte} {q : ReviseParams} {r : Domain}

theorem ReviseParams.fits_primary {p : Primary} (source : r.source = .primary p) :
    q.fits r = true ↔ q.gap = 0 ∧ q.period ≠ 0 ∧ q.high ≠ 0 ∧ (r.isActive = true → q.phase = none) := by
  have phase : (!(r.isActive && q.phase.isSome)) = true ↔ (r.isActive = true → q.phase = none) := by
    cases r.isActive <;> cases q.phase <;> simp
  simp only [ReviseParams.fits, source, Bool.and_eq_true, decide_eq_true_eq, phase, and_assoc]

theorem ReviseParams.fits_companion {c : Companion} (source : r.source = .companion c) :
    q.fits r = true ↔ q.gap ≠ 0 ∧ q.period = 0 ∧ q.high = 0 ∧ q.phase = none := by
  simp only [ReviseParams.fits, source, Bool.and_eq_true, decide_eq_true_eq]
  tauto

theorem ReviseParams.pending_primary {p : Primary} (source : r.source = .primary p) :
    q.pending r = .revisePrimary q.period q.high := by
  simp only [ReviseParams.pending, source]

theorem ReviseParams.pending_companion {c : Companion} (source : r.source = .companion c) :
    q.pending r = .reviseCompanion q.gap := by
  simp only [ReviseParams.pending, source]

theorem Domain.gap_companion {c : Companion} (source : r.source = .companion c) : r.gap = c.gap := by
  simp only [Domain.gap, source]

/-- The new values of a primary against its companion's gap, in force and pending (R48). -/
theorem State.gapFitsCompanion_iff {companion : Option DomainNo} {period high : Nat} :
    s.gapFitsCompanion companion period high = true ↔ ∀ c x, companion = some c → s.domain c = some x →
      high + 2 * x.gap + 1 ≤ period ∧
        ∀ gap, x.life = .active (.reviseCompanion gap) → high + 2 * gap + 1 ≤ period := by
  unfold State.gapFitsCompanion
  cases companion with
  | none => simp
  | some c =>
    dsimp only
    cases record : s.domain c with
    | none =>
      refine iff_of_true rfl fun e x same found => ?_
      cases same
      rw [record] at found
      exact nomatch found
    | some x =>
      have both : (∀ e y, some c = some e → s.domain e = some y → high + 2 * y.gap + 1 ≤ period ∧
          ∀ gap, y.life = .active (.reviseCompanion gap) → high + 2 * gap + 1 ≤ period) ↔
          (high + 2 * x.gap + 1 ≤ period ∧
            ∀ gap, x.life = .active (.reviseCompanion gap) → high + 2 * gap + 1 ≤ period) := by
        refine ⟨fun h => h c x rfl record, fun h e y same found => ?_⟩
        cases same
        rw [record] at found
        cases found
        exact h
      rw [both]
      dsimp only
      rw [Bool.and_eq_true, gapOk_iff]
      refine and_congr_right fun _ => ?_
      split
      · rename_i gap pending
        rw [gapOk_iff]
        exact ⟨fun h _ same => by rw [pending] at same; cases same; exact h, fun h => h gap pending⟩
      · rename_i other
        exact ⟨fun _ gap pending => absurd pending (other gap), fun _ => rfl⟩

theorem State.reviseGapOk_primary {p : Primary} (source : r.source = .primary p) :
    s.reviseGapOk q r = true ↔ ∀ c x, p.companion = some c → s.domain c = some x →
      q.high + 2 * x.gap + 1 ≤ q.period ∧
        ∀ gap, x.life = .active (.reviseCompanion gap) → q.high + 2 * gap + 1 ≤ q.period := by
  simp only [State.reviseGapOk, source, State.gapFitsCompanion_iff]

theorem State.reviseGapOk_companion {c : Companion} {parent : Domain} {p : Primary} (source : r.source = .companion c)
    (record : s.domain c.parent = some parent) (kind : parent.source = .primary p) :
    s.reviseGapOk q r = true ↔ p.high + 2 * q.gap + 1 ≤ p.period ∧
      ∀ period high, parent.life = .active (.revisePrimary period high) → high + 2 * q.gap + 1 ≤ period := by
  simp only [State.reviseGapOk, source, record, kind, gapFitsParent_iff]

/-- The checks of REVISE after access, in R47's order. -/
theorem takeRevise_checks (read : parseRevise params = some q) (record : s.domain q.domain = some r)
    (rights : who = .service ∨ who = r.owner) : takeRevise who params s =
      if q.fits r = false then s.refuse .badParam
      else if r.stopping then s.refuse .conflict
      else if s.reviseGapOk q r = false then s.refuse .gap
      else s.applyRevise q r := by
  simp only [takeRevise, read]
  exact State.withOwned_allowed record rights

theorem State.applyRevise_active (active : r.isActive = true) : s.applyRevise q r =
    ⟨s.setDomain q.domain (some { r with life := .active (q.pending r) }), if r.revising then .replaced else .ok, [],
      []⟩ := if_pos active

theorem State.applyRevise_standing (still : r.isActive = false) : s.applyRevise q r =
    ⟨s.setDomain q.domain (some (q.applied r)), .ok, Bytes.be 2 (q.applied r).generation.toNat,
      [((s.setDomain q.domain (some (q.applied r))).revisedNotice q.domain (q.applied r), r.subscribers)]⟩ :=
  if_neg (by simp [still])

variable {g : Grant}

theorem exec_revise_badParam (h : NextRequest s g .revise params) (read : parseRevise params = some q)
    (record : s.domain q.domain = some r) (rights : mayChange g r) (unfit : ¬ q.fits r = true) :
    exec .revise s = .next (granted s g id .badParam [] []) := by
  refine exec_refused rfl h ?_
  rw [takeRevise_checks (s := s.moveArbiter g) read record rights, if_pos (by simpa using unfit)]

theorem exec_revise_conflict (h : NextRequest s g .revise params) (read : parseRevise params = some q)
    (record : s.domain q.domain = some r) (rights : mayChange g r) (fit : q.fits r = true) (stopping : r.stopping = true) :
    exec .revise s = .next (granted s g id .conflict [] []) := by
  refine exec_refused rfl h ?_
  rw [takeRevise_checks (s := s.moveArbiter g) read record rights, if_neg (by simp [fit]), if_pos stopping]

theorem exec_revise_gap (h : NextRequest s g .revise params) (read : parseRevise params = some q)
    (record : s.domain q.domain = some r) (rights : mayChange g r) (fit : q.fits r = true)
    (goes : ¬ r.stopping = true) (narrow : ¬ s.reviseGapOk q r = true) :
    exec .revise s = .next (granted s g id .gap [] []) := by
  have narrow' : (s.moveArbiter g).reviseGapOk q r = false := by
    have : s.reviseGapOk q r = false := by simpa using narrow
    exact this
  refine exec_refused rfl h ?_
  rw [takeRevise_checks (s := s.moveArbiter g) read record rights, if_neg (by simp [fit]), if_neg goes, if_pos narrow']

/-- A REVISE that passes every check (R49, R50). -/
theorem exec_revise_applies {effect : State → State} {status : Status} {data : List Byte}
    {notices : List (Notice × BoardSet)} (h : NextRequest s g .revise params) (read : parseRevise params = some q)
    (record : s.domain q.domain = some r) (rights : mayChange g r) (fit : q.fits r = true)
    (goes : ¬ r.stopping = true) (wide : s.reviseGapOk q r = true)
    (applies : (s.moveArbiter g).applyRevise q r = ⟨effect (s.moveArbiter g), status, data, notices⟩) :
    exec .revise s = .next (granted s g effect status data notices) := by
  have wide' : ¬ (s.moveArbiter g).reviseGapOk q r = false := by
    have : (s.moveArbiter g).reviseGapOk q r = true := wide
    simp [this]
  refine exec_taken rfl h ?_
  rw [takeRevise_checks (s := s.moveArbiter g) read record rights, if_neg (by simp [fit]), if_neg goes, if_neg wide',
    applies]

theorem Domain.not_stopping_of_inactive (still : r.isActive = false) : ¬ r.stopping = true := by
  rw [Domain.stopping_iff]
  rcases Domain.inactive_iff.mp still with life | ⟨reason, life⟩ <;> simp [life]

end Revise

/-! PAUSE, RETIRE and CANCEL (R46, R47, R52, R56 to R58) -/

section Slot
variable {s : State} {who : Owner} {x : Byte} {d : DomainNo} {r : Domain} {pending : Pending}

theorem takePause_eq (hx : x.toNat = d.val) (record : s.domain d = some r) (rights : who = .service ∨ who = r.owner) :
    takePause who [x] s =
      match r.life with
      | .defined => s.refuse .wrongState
      | .paused _ => s.refuse .already
      | .active p =>
        if s.companionActive r then s.refuse .dependent
        else
          match p with
          | .nothing => ⟨s.setPending d r (.pause .requested), .ok, [], []⟩
          | .revisePrimary _ _ => s.refuse .conflict
          | .reviseCompanion _ => s.refuse .conflict
          | .pause _ => s.refuse .already
          | .retire => s.refuse .conflict := by
  refine (State.takeOwned_allowed hx record rights).trans ?_
  rfl

theorem takeRetire_eq (hx : x.toNat = d.val) (record : s.domain d = some r) (rights : who = .service ∨ who = r.owner)
    (alone : r.companionNo = none) : takeRetire who [x] s =
      match r.life with
      | .defined => s.retireNow d r
      | .paused _ => s.retireNow d r
      | .active .nothing => ⟨s.setPending d r .retire, .ok, [], []⟩
      | .active (.revisePrimary _ _) => ⟨s.setPending d r .retire, .upgraded, [], []⟩
      | .active (.reviseCompanion _) => ⟨s.setPending d r .retire, .upgraded, [], []⟩
      | .active (.pause _) => ⟨s.setPending d r .retire, .upgraded, [], []⟩
      | .active .retire => s.refuse .already := by
  refine (State.takeOwned_allowed hx record rights).trans ?_
  have free : ¬ r.companionNo.isSome = true := by simp [alone]
  rw [if_neg free] <;> rfl

theorem takeRetire_dependent (hx : x.toNat = d.val) (record : s.domain d = some r)
    (rights : who = .service ∨ who = r.owner) (companion : r.companionNo ≠ none) :
    takeRetire who [x] s = s.refuse .dependent := by
  refine (State.takeOwned_allowed hx record rights).trans ?_
  exact if_pos (Option.isSome_iff_ne_none.mpr companion)

theorem takeCancel_eq (hx : x.toNat = d.val) (record : s.domain d = some r) (rights : who = .service ∨ who = r.owner) :
    takeCancel who [x] s =
      match r.life with
      | .defined => s.refuse .already
      | .paused _ => s.refuse .already
      | .active .nothing => s.refuse .already
      | .active (.revisePrimary _ _) => ⟨s.setPending d r .nothing, .ok, [], []⟩
      | .active (.reviseCompanion _) => ⟨s.setPending d r .nothing, .ok, [], []⟩
      | .active (.pause _) => ⟨s.setPending d r .nothing, .ok, [], []⟩
      | .active .retire => s.refuse .conflict := by
  refine (State.takeOwned_allowed hx record rights).trans ?_
  rfl

/-- A record that stands retires at once (R56). -/
theorem takeRetire_standing (hx : x.toNat = d.val) (record : s.domain d = some r)
    (rights : who = .service ∨ who = r.owner) (alone : r.companionNo = none) (still : r.isActive = false) :
    takeRetire who [x] s = ⟨s.freeDomain d, .ok, [], [(.retired d, r.subscribers)]⟩ := by
  rw [takeRetire_eq hx record rights alone]
  rcases Domain.inactive_iff.mp still with life | ⟨reason, life⟩ <;> rw [life] <;> rfl

end Slot

/-- Settles O32: a revision at once, REVISE's reader and refusals, and the records that stand. -/
theorem standingRecordsAreRevisedAndRetiredAtOnce : Obligations.StandingRecordsAreRevisedAndRetiredAtOnce := by
  refine ⟨?_, ⟨fun params => parseRevise_of_length, fun x p1 p2 h1 h2 present f1 f2 gap => ⟨fun bad => ?_,
    fun d hx range => ?_⟩⟩, ?_, ?_⟩
  · intro s g params q r h read record rights still
    have goes := Domain.not_stopping_of_inactive still
    have inactive : ¬ r.isActive = true := by simp [still]
    refine ⟨fun p source period high gap wide => ?_, fun c parent p source parentRecord kind apart period high phase gap
      fits pendingFits => ?_⟩
    · intro phase
      have fit : q.fits r = true :=
        (ReviseParams.fits_primary source).mpr ⟨gap, period, high, fun k => absurd k inactive⟩
      have values : q.phase.getD (p.phase % q.period) = phase := by
        simp only [phase]
        cases q.phase <;> rfl
      refine exec_revise_applies h read record rights fit goes ((State.reviseGapOk_primary source).mpr wide) ?_
      rw [State.applyRevise_standing still, ReviseParams.applied_primary source, values,
        State.revisedNotice_primary rfl]
    · have fit : q.fits r = true := (ReviseParams.fits_companion source).mpr ⟨gap, period, high, phase⟩
      refine exec_revise_applies h read record rights fit goes
        ((State.reviseGapOk_companion source parentRecord kind).mpr ⟨fits, pendingFits⟩) ?_
      rw [State.applyRevise_standing still, ReviseParams.applied_companion source]
      have stands : ((s.moveArbiter g).setDomain q.domain (some { r with
          source := .companion { c with gap := q.gap }
          generation := r.generation + 1 })).domain c.parent = some parent := by
        rw [State.domain_setDomain, if_neg apart]
        exact parentRecord
      rw [State.revisedNotice_companion (c := { c with gap := q.gap }) rfl stands kind]
  · exact parseRevise_none (by simpa only [ReviseInRange] using bad)
  · exact parseRevise_some hx range
  · intro s g params q r h read record rights refused stopping
    refine ⟨fun p source => ?_, fun c source => ?_⟩
    · intro fits
      have fit : q.fits r = true ↔ fits := ReviseParams.fits_primary source
      refine ⟨fun unfit => exec_revise_badParam h read record rights (mt fit.mp unfit), fun good stops =>
        exec_revise_conflict h read record rights (fit.mpr good) (Domain.stopping_iff.mpr stops),
        fun c x good goes companion found narrow => exec_revise_gap h read record rights (fit.mpr good)
          (mt Domain.stopping_iff.mp goes) fun wide => ?_⟩
      obtain ⟨now, later⟩ := (State.reviseGapOk_primary source).mp wide c x companion found
      rcases narrow with less | ⟨gap, pending, less⟩
      · omega
      · have := later gap pending
        omega
    · intro fits
      have fit : q.fits r = true ↔ fits := ReviseParams.fits_companion source
      refine ⟨fun unfit => exec_revise_badParam h read record rights (mt fit.mp unfit), fun good stops =>
        exec_revise_conflict h read record rights (fit.mpr good) (Domain.stopping_iff.mpr stops),
        fun parent p good goes found kind narrow => exec_revise_gap h read record rights (fit.mpr good)
          (mt Domain.stopping_iff.mp goes) fun wide => ?_⟩
      obtain ⟨now, later⟩ := (State.reviseGapOk_companion source found kind).mp wide
      rcases narrow with less | ⟨period, high, pending, less⟩
      · omega
      · have := later period high pending
        omega
  · intro s g x d r hx record rights
    refine ⟨fun p h still source alone => ?_, fun c parent p h still source _ parentRecord kind => ?_,
      fun h companion => ?_, fun h life => ?_, fun reason h life => ?_, fun h active runs => ?_, fun h still => ?_⟩
    · have free : r.companionNo = none := by simp only [Domain.companionNo, source, alone]
      refine exec_taken rfl h ?_
      rw [takeRetire_standing (s := s.moveArbiter g) hx record rights free still,
        State.freeDomain_primary (s := s.moveArbiter g) record source]
    · have free : r.companionNo = none := by simp only [Domain.companionNo, source]
      refine exec_taken rfl h ?_
      rw [takeRetire_standing (s := s.moveArbiter g) hx record rights free still,
        State.freeDomain_companion (s := s.moveArbiter g) record source parentRecord kind]
    · exact exec_refused rfl h (takeRetire_dependent (s := s.moveArbiter g) hx record rights companion)
    · exact exec_refused rfl h (by rw [takePause_eq (s := s.moveArbiter g) hx record rights, life])
    · exact exec_refused rfl h (by rw [takePause_eq (s := s.moveArbiter g) hx record rights, life])
    · obtain ⟨p, life⟩ := Domain.active_iff.mp active
      refine exec_refused rfl h ?_
      rw [takePause_eq (s := s.moveArbiter g) hx record rights, life]
      exact if_pos runs
    · refine exec_refused rfl h ?_
      rw [takeCancel_eq (s := s.moveArbiter g) hx record rights]
      rcases Domain.inactive_iff.mp still with life | ⟨reason, life⟩ <;> rw [life]

/-- Settles O33: the slot table by the pending change, and what REVISE asks and leaves pending. -/
theorem thePendingSlotDecidesChangeRequests : Obligations.ThePendingSlotDecidesChangeRequests := by
  constructor
  · intro s g x d r pending hx record rights life slot revising pausing
    have active : r.isActive = true := Domain.active_iff.mpr ⟨pending, life⟩
    have stops : r.stopping = true ↔ pausing ∨ pending = .retire := by
      simp only [Domain.stopping_iff, life, Life.active.injEq, pausing]
    refine ⟨fun h alone => ?_, fun h alone => ?_, fun h => ?_, fun params q h read same fit => ?_⟩
    · have free : ¬ (s.moveArbiter g).companionActive r = true := by
        have : (s.moveArbiter g).companionActive r = false := alone
        simp [this]
      have form := takePause_eq (s := s.moveArbiter g) hx record rights
      rw [life] at form
      simp only [if_neg free] at form
      refine ⟨?_, ?_, ?_⟩
      · rintro rfl
        exact exec_taken rfl h form
      · rintro ⟨reason, rfl⟩
        exact exec_refused rfl h form
      · rintro ((⟨period, high, rfl⟩ | ⟨gap, rfl⟩) | rfl)
        all_goals exact exec_refused rfl h form
    · have form := takeRetire_eq (s := s.moveArbiter g) hx record rights alone
      rw [life] at form
      refine ⟨?_, ?_, ?_⟩
      · rintro rfl
        exact exec_taken rfl h form
      · rintro ((⟨period, high, rfl⟩ | ⟨gap, rfl⟩) | ⟨reason, rfl⟩)
        all_goals exact exec_taken rfl h form
      · rintro rfl
        exact exec_refused rfl h form
    · have form := takeCancel_eq (s := s.moveArbiter g) hx record rights
      rw [life] at form
      refine ⟨?_, ?_, ?_⟩
      · rintro rfl
        exact exec_refused rfl h form
      · rintro ((⟨period, high, rfl⟩ | ⟨gap, rfl⟩) | ⟨reason, rfl⟩)
        all_goals exact exec_taken rfl h form
      · rintro rfl
        exact exec_refused rfl h form
    · subst same
      refine ⟨fun stop => exec_revise_conflict h read record rights fit (stops.mpr stop), fun narrow goes =>
        exec_revise_gap h read record rights fit (mt stops.mp goes) (by simp [narrow]), fun wide => ⟨?_, ?_⟩⟩
      · intro same
        have goes : ¬ r.stopping = true := by simp [Domain.stopping, life, same]
        refine exec_revise_applies h read record rights fit goes wide ?_
        have fresh : ¬ r.revising = true := by simp [Domain.revising, life, same]
        rw [State.applyRevise_active active, if_neg fresh]
      · intro same
        have goes : ¬ r.stopping = true := by
          rcases same with ⟨period, high, same⟩ | ⟨gap, same⟩ <;> simp [Domain.stopping, life, same]
        refine exec_revise_applies h read record rights fit goes wide ?_
        have again : r.revising = true := by
          rcases same with ⟨period, high, same⟩ | ⟨gap, same⟩ <;> simp [Domain.revising, life, same]
        rw [State.applyRevise_active active, if_pos again]
  · exact fun s q r => ⟨fun p source => ⟨ReviseParams.fits_primary source, ReviseParams.pending_primary source,
      State.reviseGapOk_primary source⟩, fun c source => ⟨ReviseParams.fits_companion source,
        ReviseParams.pending_companion source, fun parent p found kind => State.reviseGapOk_companion source found kind⟩⟩

end Sys2Proof.Machine
end

section
/-! SUPPORT. The steps of one edge (R78), one equation per case: the statements O39, O40 and O41. -/

namespace Sys2Proof.Machine

open Sys2Proof.Safety

/-! Next edges (R4, R9) -/

section After
variable {s : State} {d : DomainNo} {r : Domain} {kind : EdgeKind} {t : Nat}

/-- The edge after one at `t`, for a primary. -/
def Primary.nextEdge (p : Primary) (d : DomainNo) (kind : EdgeKind) (t : Nat) : Entry :=
  match kind with
  | .rise => ⟨t + p.high, d, .fall⟩
  | .fall => ⟨t + p.period - p.high, d, .rise⟩

/-- The edge after one at `t`, for a companion of gap `gap`. -/
def Primary.nextEdgeOf (p : Primary) (gap : Nat) (d : DomainNo) (kind : EdgeKind) (t : Nat) : Entry :=
  match kind with
  | .rise => ⟨t + (p.period - p.high - 2 * gap), d, .fall⟩
  | .fall => ⟨t + p.high + 2 * gap, d, .rise⟩

theorem State.edgeAfter_primary {p : Primary} (source : r.source = .primary p) :
    s.edgeAfter d r kind t = p.nextEdge d kind t := by
  simp only [State.edgeAfter, source]
  cases kind <;> rfl

theorem State.edgeAfter_companion {c : Companion} {parent : Domain} {p : Primary} (source : r.source = .companion c)
    (record : s.domain c.parent = some parent) (found : parent.source = .primary p) :
    s.edgeAfter d r kind t = p.nextEdgeOf c.gap d kind t := by
  simp only [State.edgeAfter, source, State.parentOf_eq record found]
  cases kind <;> rfl

end After

section Steps
variable {w : Advance} {d : DomainNo} {r : Domain} {t : Nat}

/-! Step 1 (R78, R81) -/

theorem Advance.level_eq (h : w.state.domain d = some r) (kind : EdgeKind) : w.level d kind = { w with
    state := w.state.setDomain d (some { r with level := kind.level })
    entries := w.entries ++ [⟨d, kind.level, r.subscribers⟩] } := Advance.withRecord_some h

/-! Step 2 (R11, R12, R78) -/

theorem Advance.revision_companion {c : Companion} (h : w.state.domain d = some r) (source : r.source = .companion c) :
    w.revision d t = w := by
  have own : w.ownRevision d t = w := by
    rw [Advance.ownRevision, Advance.withRecord_some h]
    simp only [source]
  rw [Advance.revision, Advance.withRecord_some h]
  dsimp only
  rw [own, Advance.withRecord_some h]
  simp only [source]

/-- What an advance does with a primary's own pending revision at a RISE (R11). -/
def Advance.ownRevised (w : Advance) (d : DomainNo) (r : Domain) (p : Primary) (period high t : Nat) : Advance := { w with
  state := w.state.setDomain d (some { r with
    source := .primary { p with period := period, high := high, phase := t % period }
    generation := r.generation + 1
    life := .active .nothing })
  notices := w.notices ++ [(.revised d (r.generation + 1) period high (t % period) 0, r.subscribers)] }

/-- What an advance does with a companion's pending gap at its parent's RISE (R12, R71). -/
def Advance.gapRevised (w : Advance) (c parent : DomainNo) (x : Domain) (period high phase gap t : Nat) : Advance :=
  { w with
    state := (w.state.setDomain c (some { x with
      source := .companion ⟨parent, gap⟩
      generation := x.generation + 1
      life := .active .nothing })).rekey ⟨t + high + gap, c, .rise⟩
    notices := w.notices ++ [(.revised c (x.generation + 1) period (period - high - 2 * gap)
      ((phase + high + gap) % period) gap, x.subscribers)] }

theorem Advance.ownRevision_none (h : w.state.domain d = some r)
    (life : ∀ period high, r.life ≠ .active (.revisePrimary period high)) : w.ownRevision d t = w := by
  rw [Advance.ownRevision, Advance.withRecord_some h]
  split
  · rename_i period high _ pending
    exact absurd pending (life period high)
  · rfl

theorem Advance.ownRevision_some {p : Primary} {period high : Nat} (h : w.state.domain d = some r)
    (source : r.source = .primary p) (life : r.life = .active (.revisePrimary period high)) :
    w.ownRevision d t = w.ownRevised d r p period high t := by
  rw [Advance.ownRevision, Advance.withRecord_some h]
  simp only [source, life, Advance.revised, Domain.revisePrimary, Advance.note]
  rw [State.revisedNotice_primary rfl]
  rfl

theorem Domain.revisionDue_false (life : ∀ period high, r.life ≠ .active (.revisePrimary period high)) :
    r.revisionDue = false := by
  unfold Domain.revisionDue
  split
  · rename_i period high _ pending
    exact absurd pending (life period high)
  · rfl

theorem Domain.revisionDue_true {p : Primary} {period high : Nat} (source : r.source = .primary p)
    (life : r.life = .active (.revisePrimary period high)) : r.revisionDue = true := by
  simp only [Domain.revisionDue, source, life]

/-- Step 2 goes on with the primary as its own revision has left it. -/
theorem Advance.revision_primary {v : Advance} {q : Domain} {p : Primary} (h : w.state.domain d = some r)
    (own : w.ownRevision d t = v) (after : v.state.domain d = some q) (source : q.source = .primary p) :
    w.revision d t = match p.companion with
      | none => v
      | some c => v.settleCompanion p c t r.revisionDue := by
  rw [Advance.revision, Advance.withRecord_some h]
  dsimp only
  rw [own, Advance.withRecord_some after]
  simp only [source] <;> rfl

section Settling
variable {p : Primary} {c : DomainNo} {x : Domain} {due : Bool}

theorem Advance.settleCompanion_idle (still : ∀ x, w.state.domain c = some x → x.isActive = false) :
    w.settleCompanion p c t due = w := by
  cases h : w.state.domain c with
  | none => exact Advance.withRecord_none h
  | some x =>
    rw [Advance.settleCompanion, Advance.withRecord_some h]
    rcases Domain.inactive_iff.mp (still x h) with life | ⟨reason, life⟩ <;> simp only [life]

theorem Advance.settleCompanion_stays (h : w.state.domain c = some x)
    (life : ∀ gap, x.life ≠ .active (.reviseCompanion gap)) : w.settleCompanion p c t false = w := by
  rw [Advance.settleCompanion, Advance.withRecord_some h]
  split
  · rename_i gap pending
    exact absurd pending (life gap)
  all_goals rfl

/-- The parent's revision re-keys its ACTIVE companion (R12, R71). -/
theorem Advance.settleCompanion_rekeys (h : w.state.domain c = some x) (active : x.isActive = true)
    (life : ∀ gap, x.life ≠ .active (.reviseCompanion gap)) : w.settleCompanion p c t true =
      { w with state := w.state.rekey ⟨t + p.high + x.gap, c, .rise⟩ } := by
  have rekeyed : w.rekeyCompanion p c t = { w with state := w.state.rekey ⟨t + p.high + x.gap, c, .rise⟩ } :=
    Advance.withRecord_some h
  obtain ⟨pending, state⟩ := Domain.active_iff.mp active
  rw [Advance.settleCompanion, Advance.withRecord_some h, state]
  cases pending with
  | reviseCompanion gap => exact absurd state (life gap)
  | _ => exact rekeyed

theorem Advance.settleCompanion_revises {parent : DomainNo} {q : Domain} {g gap : Nat} (h : w.state.domain c = some x)
    (apart : c ≠ parent) (source : x.source = .companion ⟨parent, g⟩) (life : x.life = .active (.reviseCompanion gap))
    (found : w.state.domain parent = some q) (kind : q.source = .primary p) :
    w.settleCompanion p c t due = w.gapRevised c parent x p.period p.high p.phase gap t := by
  have stands : ∀ y, (w.state.setDomain c y).domain parent = some q := fun y => by
    rw [State.domain_setDomain, if_neg (Ne.symm apart), found]
  have written : ∀ y, (w.state.setDomain c (some y)).domain c = some y := fun y => by
    rw [State.domain_setDomain, if_pos rfl]
  rw [Advance.settleCompanion, Advance.withRecord_some h]
  simp only [life, Advance.revised, Domain.reviseCompanion, source, Advance.note]
  rw [State.revisedNotice_companion (c := ⟨parent, gap⟩) rfl (stands _) kind]
  exact Advance.withRecord_some (w := ⟨w.state.setDomain c _, _, _, _⟩) (written { x with
    source := .companion ⟨parent, gap⟩
    generation := x.generation + 1
    life := .active .nothing })

end Settling

/-! Steps 3 and 4 (R40, R41, R61, R78) -/

/-- The record with its RISE counted (R40). -/
def Domain.counted (r : Domain) : Domain := { r with count := min (2 ^ 32 - 1) (r.count + 1) }

theorem Advance.count_unreached (h : w.state.domain d = some r) (none : r.reachesStop = none) :
    w.count d = { w with state := w.state.setDomain d (some r.counted) } := by
  rw [Advance.count, Advance.withRecord_some h, none]
  rfl

theorem Advance.count_notify (h : w.state.domain d = some r) (reached : r.reachesStop = some .notify) :
    w.count d = { w with state := (w.state.setDomain d (some r.counted)).raise (.count d) } := by
  rw [Advance.count, Advance.withRecord_some h, reached]
  rfl

theorem Advance.count_stopCabinet (h : w.state.domain d = some r) (reached : r.reachesStop = some .stopCabinet) :
    w.count d = { w with
      state := (w.state.setDomain d (some r.counted)).raise (.count d)
      breakpoints := w.breakpoints ++ [d] } := by
  rw [Advance.count, Advance.withRecord_some h, reached]
  rfl

theorem Advance.count_pauses (h : w.state.domain d = some r) (reached : r.reachesStop = some .pauseDomain)
    (life : r.life = .active .nothing) (alone : w.state.companionActive r = false) : w.count d = { w with
      state := (w.state.setDomain d (some { r.counted with life := .active (.pause .count) })).raise (.count d) } := by
  have free : r.counted.life = .active .nothing ∧ w.state.companionActive r.counted = false := ⟨life, alone⟩
  have pause : w.state.countPause r.counted = { r.counted with life := .active (.pause .count) } := if_pos free
  rw [Advance.count, Advance.withRecord_some h, reached, ← pause]
  rfl

theorem Advance.count_kept (h : w.state.domain d = some r) (reached : r.reachesStop = some .pauseDomain)
    (kept : r.life ≠ .active .nothing ∨ w.state.companionActive r = true) :
    w.count d = { w with state := (w.state.setDomain d (some r.counted)).raise (.count d) } := by
  have bound : ¬ (r.counted.life = .active .nothing ∧ w.state.companionActive r.counted = false) := by
    rintro ⟨life, alone⟩
    rcases kept with other | runs
    · exact other life
    · have free : w.state.companionActive r = false := alone
      simp [runs] at free
  have same : w.state.countPause r.counted = r.counted := if_neg bound
  rw [Advance.count, Advance.withRecord_some h, reached]
  exact congrArg (fun x => ({ w with state := (w.state.setDomain d (some x)).raise (.count d) } : Advance)) same

/-! Step 5 (R53, R57, R70, R78) -/

theorem Advance.finish_onward {kind : EdgeKind} (h : w.state.domain d = some r)
    (goes : kind.level ≠ r.park ∨ (∀ reason, r.life ≠ .active (.pause reason)) ∧ r.life ≠ .active .retire) :
    w.finish d kind t = { w with state := w.state.insertEntry (w.state.edgeAfter d r kind t) } := by
  rw [Advance.finish, Advance.withRecord_some h]
  dsimp only
  split
  · rename_i park
    obtain ⟨pause, retire⟩ := goes.resolve_left (not_not_intro park)
    split
    · rename_i reason life
      exact absurd life (pause reason)
    · contradiction
    all_goals rfl
  · rfl

theorem Advance.finish_pauses {kind : EdgeKind} {reason : PauseReason} (h : w.state.domain d = some r)
    (park : kind.level = r.park) (life : r.life = .active (.pause reason)) : w.finish d kind t = { w with
      state := w.state.setDomain d (some { r with life := .paused reason })
      notices := w.notices ++ [(.paused d reason, r.subscribers)] } := by
  rw [Advance.finish, Advance.withRecord_some h]
  simp only [if_pos park, life]
  rfl

theorem Advance.finish_retires {kind : EdgeKind} (h : w.state.domain d = some r) (park : kind.level = r.park)
    (life : r.life = .active .retire) : w.finish d kind t = { w with
      state := w.state.freeDomain d
      notices := w.notices ++ [(.retired d, r.subscribers)] } := by
  rw [Advance.finish, Advance.withRecord_some h]
  simp only [if_pos park, life]
  rfl

/-! Whole edges -/

theorem Domain.reachesStop_absent (stop : r.stop = none) : r.reachesStop = none := by
  simp only [Domain.reachesStop, stop]

/-- Step 2 does nothing where no revision is due (R78). -/
theorem Advance.revision_none (h : w.state.domain d = some r)
    (life : ∀ period high, r.life ≠ .active (.revisePrimary period high)) (alone : w.state.companionActive r = false) :
    w.revision d t = w := by
  cases source : r.source with
  | companion c => exact Advance.revision_companion h source
  | primary p =>
    rw [Advance.revision_primary h (Advance.ownRevision_none h life) h source]
    cases companion : p.companion with
    | none => rfl
    | some c =>
      refine Advance.settleCompanion_idle fun x found => ?_
      by_contra active
      have runs := State.companionActive_iff.mpr ⟨p, c, x, source, companion, found, by simpa using active⟩
      simp [runs] at alone

/-- Another record's level does not matter to whether a companion runs. -/
theorem State.companionActive_setDomain {s : State} {q : Domain} (h : s.domain d = some r)
    (active : q.isActive = r.isActive) (y : Domain) :
    (s.setDomain d (some q)).companionActive y = s.companionActive y := by
  rw [Bool.eq_iff_iff, State.companionActive_iff, State.companionActive_iff]
  refine exists_congr fun p => exists_congr fun c => ?_
  by_cases same : c = d
  · subst same
    simp only [State.domain_setDomain, if_true, h, Option.some.injEq]
    constructor <;> rintro ⟨x, parent, companion, rfl, runs⟩
    · exact ⟨_, parent, companion, rfl, active ▸ runs⟩
    · exact ⟨_, parent, companion, rfl, active.trans runs⟩
  · simp only [State.domain_setDomain, if_neg same]

/-- The record written by step 1 is what the later steps read. -/
theorem State.domain_written {s : State} {q : Domain} : (s.setDomain d (some q)).domain d = some q := by
  rw [State.domain_setDomain, if_pos rfl]

/-- A RISE at which no revision is due is its level, its count and its completion. -/
theorem Advance.rise_eq (h : w.state.domain d = some r)
    (life : ∀ period high, r.life ≠ .active (.revisePrimary period high)) (alone : w.state.companionActive r = false) :
    w.edge t ⟨t, d, .rise⟩ = (Advance.count { w with
      state := w.state.setDomain d (some { r with level := .high })
      entries := w.entries ++ [⟨d, .high, r.subscribers⟩] } d).finish d .rise t := by
  have risen : (w.level d .rise).revision d t = w.level d .rise := by
    rw [Advance.level_eq h]
    refine Advance.revision_none State.domain_written life ?_
    exact (State.companionActive_setDomain (q := { r with level := .high }) h rfl r).trans alone
  have form : w.edge t ⟨t, d, .rise⟩ = (((w.level d .rise).revision d t).count d).finish d .rise t := rfl
  rw [form, risen, Advance.level_eq h]
  rfl

theorem Advance.fall_eq (h : w.state.domain d = some r) : w.edge t ⟨t, d, .fall⟩ = Advance.finish { w with
    state := w.state.setDomain d (some { r with level := .low })
    entries := w.entries ++ [⟨d, .low, r.subscribers⟩] } d .fall t := by
  have form : w.edge t ⟨t, d, .fall⟩ = (w.level d .fall).finish d .fall t := rfl
  rw [form, Advance.level_eq h]
  rfl

/-- One edge with nothing pending, no stop setting and no ACTIVE companion (R40, R70, R78, R81). -/
theorem Advance.plain_edge (h : w.state.domain d = some r) (life : r.life = .active .nothing) (stop : r.stop = none)
    (alone : w.state.companionActive r = false) {risenEdge fallenEdge : Entry}
    (afterRise : (w.state.setDomain d (some { r with level := .high, count := min (2 ^ 32 - 1) (r.count + 1) })).edgeAfter
      d { r with level := .high, count := min (2 ^ 32 - 1) (r.count + 1) } .rise t = risenEdge)
    (afterFall : (w.state.setDomain d (some { r with level := .low })).edgeAfter d { r with level := .low } .fall t =
      fallenEdge) :
    w.edge t ⟨t, d, .rise⟩ = ({ w with
        state := (w.state.setDomain d (some { r with level := .high, count := min (2 ^ 32 - 1) (r.count + 1) })).insertEntry
          risenEdge
        entries := w.entries ++ [⟨d, .high, r.subscribers⟩] } : Advance) ∧
      w.edge t ⟨t, d, .fall⟩ = ({ w with
        state := (w.state.setDomain d (some { r with level := .low })).insertEntry fallenEdge
        entries := w.entries ++ [⟨d, .low, r.subscribers⟩] } : Advance) := by
  have free : (∀ reason, r.life ≠ .active (.pause reason)) ∧ r.life ≠ .active .retire := by
    rw [life]
    exact ⟨nofun, nofun⟩
  refine ⟨?_, ?_⟩
  · rw [Advance.rise_eq h (by rw [life]; nofun) alone,
      Advance.count_unreached (r := { r with level := .high }) State.domain_written (Domain.reachesStop_absent stop)]
    simp only [State.setDomain_setDomain]
    rw [Advance.finish_onward (r := Domain.counted { r with level := .high }) State.domain_written (.inr free), ← afterRise]
    rfl
  · rw [Advance.fall_eq h, Advance.finish_onward (r := { r with level := .low }) State.domain_written (.inr free),
      ← afterFall]

end Steps

/-- Settles O39: the plain edge, and the steps of every edge. -/
theorem edgesToggleAndScheduleTheNext : Obligations.EdgesToggleAndScheduleTheNext := by
  constructor
  · intro w t d r h life stop alone risen fallen after
    refine ⟨fun p source => ?_, fun c parent p source apart found kind => ?_⟩
    · exact Advance.plain_edge h life stop alone (State.edgeAfter_primary source) (State.edgeAfter_primary source)
    · have stands : ∀ y, (w.state.setDomain d y).domain c.parent = some parent := fun y => by
        rw [State.domain_setDomain, if_neg apart, found]
      exact Advance.plain_edge h life stop alone (State.edgeAfter_companion source (stands _) kind)
        (State.edgeAfter_companion source (stands _) kind)
  · refine fun w t time d r => ⟨rfl, rfl, fun h kind level row => ⟨?_, fun goes => ⟨fun p source => ?_,
      fun c parent p source found primary => ?_⟩⟩⟩
    all_goals
      have same : kind.level = level := by
        simp only [List.mem_cons, Prod.mk.injEq, List.not_mem_nil, or_false] at row
        rcases row with ⟨rfl, rfl⟩ | ⟨rfl, rfl⟩ <;> rfl
      subst same
    · exact Advance.level_eq h kind
    · rw [Advance.finish_onward h goes, State.edgeAfter_primary source]
      cases kind <;> rfl
    · rw [Advance.finish_onward h goes, State.edgeAfter_companion source found primary]
      cases kind <;> rfl

/-! Revisions at a RISE (R11, R12) -/

section Revisions
variable {w : Advance} {t : Nat} {d : DomainNo} {r : Domain} {p : Primary}

theorem Advance.ownRevised_record {period high : Nat} : (w.ownRevised d r p period high t).state.domain d = some { r with
    source := .primary { p with period := period, high := high, phase := t % period }
    generation := r.generation + 1
    life := .active .nothing } := State.domain_written

theorem Advance.ownRevised_other {period high : Nat} {c : DomainNo} (apart : c ≠ d) :
    (w.ownRevised d r p period high t).state.domain c = w.state.domain c := by
  rw [Advance.ownRevised]
  exact (State.domain_setDomain ..).trans (if_neg apart)

/-- Step 2 without an own revision. -/
theorem Advance.revision_unrevised (h : w.state.domain d = some r) (source : r.source = .primary p)
    (life : ∀ period high, r.life ≠ .active (.revisePrimary period high)) : w.revision d t =
      match p.companion with
      | none => w
      | some c => w.settleCompanion p c t false := by
  rw [Advance.revision_primary h (Advance.ownRevision_none h life) h source, Domain.revisionDue_false life]

/-- Step 2 with an own revision: the companion is settled against the new values. -/
theorem Advance.revision_revised {period high : Nat} (h : w.state.domain d = some r) (source : r.source = .primary p)
    (life : r.life = .active (.revisePrimary period high)) : w.revision d t =
      match p.companion with
      | none => w.ownRevised d r p period high t
      | some c => (w.ownRevised d r p period high t).settleCompanion
          { p with period := period, high := high, phase := t % period } c t true := by
  rw [Advance.revision_primary h (Advance.ownRevision_some h source life) Advance.ownRevised_record rfl,
    Domain.revisionDue_true source life]

theorem Advance.revision_settles {period high : Nat} {c : DomainNo} (h : w.state.domain d = some r)
    (source : r.source = .primary p) (life : r.life = .active (.revisePrimary period high))
    (companion : p.companion = some c) : w.revision d t = (w.ownRevised d r p period high t).settleCompanion
      { p with period := period, high := high, phase := t % period } c t true := by
  have settled := Advance.revision_revised (t := t) h source life
  generalize ({ p with period := period, high := high, phase := t % period } : Primary) = q at settled ⊢
  rw [settled, companion]

/-- Step 2, as O40 (2) states it. -/
theorem Advance.revision_cases (h : w.state.domain d = some r) (source : r.source = .primary p) :
    let alone := ∀ c x, p.companion = some c → w.state.domain c = some x → x.isActive = false
    ((∀ period high, r.life ≠ .active (.revisePrimary period high)) →
      (alone → w.revision d t = w) ∧
      ∀ c x g, p.companion = some c → c ≠ d → w.state.domain c = some x → x.source = .companion ⟨d, g⟩ →
        ((∀ gap, x.life ≠ .active (.reviseCompanion gap)) → w.revision d t = w) ∧
        (∀ gap, x.life = .active (.reviseCompanion gap) →
          w.revision d t = w.gapRevised c d x p.period p.high p.phase gap t)) ∧
    (∀ period high, r.life = .active (.revisePrimary period high) →
      (alone → w.revision d t = w.ownRevised d r p period high t) ∧
      ∀ c x g, p.companion = some c → c ≠ d → w.state.domain c = some x → x.source = .companion ⟨d, g⟩ →
        x.isActive = true →
        ((∀ gap, x.life ≠ .active (.reviseCompanion gap)) →
          w.revision d t = { w.ownRevised d r p period high t with
            state := (w.ownRevised d r p period high t).state.rekey ⟨t + high + g, c, .rise⟩ }) ∧
        (∀ gap, x.life = .active (.reviseCompanion gap) →
          w.revision d t = (w.ownRevised d r p period high t).gapRevised c d x period high (t % period) gap t)) := by
  intro alone
  refine ⟨fun life => ⟨fun idle => ?_, fun c x g companion apart found kind => ⟨fun stays => ?_, fun gap pending => ?_⟩⟩,
    fun period high life => ⟨fun idle => ?_, fun c x g companion apart found kind active =>
      ⟨fun stays => ?_, fun gap pending => ?_⟩⟩⟩
  · rw [Advance.revision_unrevised h source life]
    cases companion : p.companion with
    | none => rfl
    | some c => exact Advance.settleCompanion_idle fun x found => idle c x companion found
  · rw [Advance.revision_unrevised h source life, companion]
    exact Advance.settleCompanion_stays found stays
  · rw [Advance.revision_unrevised h source life, companion]
    exact Advance.settleCompanion_revises found apart kind pending h source
  · rw [Advance.revision_revised h source life]
    cases companion : p.companion with
    | none => rfl
    | some c =>
      refine Advance.settleCompanion_idle fun x found => ?_
      by_cases same : c = d
      · subst same
        have active := idle c r companion h
        simp [Domain.isActive, life] at active
      · rw [Advance.ownRevised_other same] at found
        exact idle c x companion found
  · rw [Advance.revision_settles h source life companion,
      Advance.settleCompanion_rekeys ((Advance.ownRevised_other apart).trans found) active stays,
      Domain.gap_companion kind]
  · rw [Advance.revision_settles h source life companion]
    exact Advance.settleCompanion_revises ((Advance.ownRevised_other apart).trans found) apart kind pending
      Advance.ownRevised_record rfl

/-- A RISE whose revision leaves the record at `q` with nothing pending and no stop setting. -/
theorem Advance.rise_revised {v : Advance} {q : Domain} {p' : Primary} (h : w.state.domain d = some r)
    (revised : Advance.revision { w with
      state := w.state.setDomain d (some { r with level := .high })
      entries := w.entries ++ [⟨d, .high, r.subscribers⟩] } d t = v)
    (after : v.state.domain d = some q) (source : q.source = .primary p') (life : q.life = .active .nothing)
    (stop : q.stop = none) : w.edge t ⟨t, d, .rise⟩ =
      { v with state := (v.state.setDomain d (some q.counted)).insertEntry ⟨t + p'.high, d, .fall⟩ } := by
  have form : w.edge t ⟨t, d, .rise⟩ = (((w.level d .rise).revision d t).count d).finish d .rise t := rfl
  have level := Advance.level_eq h .rise
  have free : (∀ reason, q.counted.life ≠ .active (.pause reason)) ∧ q.counted.life ≠ .active .retire := by
    have same : q.counted.life = .active .nothing := life
    rw [same]
    exact ⟨nofun, nofun⟩
  rw [form, level]
  dsimp only [EdgeKind.level]
  rw [revised, Advance.count_unreached after (Domain.reachesStop_absent stop),
    Advance.finish_onward State.domain_written (.inr free), State.edgeAfter_primary (r := q.counted) (p := p') source]
  rfl

end Revisions

/-- Settles O40: the revision at a RISE, alone and with the companion, and step 2 in every state. -/
theorem revisionsApplyAtTheRise : Obligations.RevisionsApplyAtTheRise := by
  refine ⟨?_, fun w t d r h => ⟨fun c source => Advance.revision_companion h source, fun p source =>
    Advance.revision_cases h source⟩⟩
  intro w t d r p period high h source life stop risen notice entries
  have written : ∀ q, (w.state.setDomain d (some q)).domain d = some q := fun q => State.domain_written
  have cases := Advance.revision_cases (t := t) (w := { w with
    state := w.state.setDomain d (some { r with level := .high })
    entries := w.entries ++ [⟨d, .high, r.subscribers⟩] }) (written _) (p := p) source
  obtain ⟨idle, runs⟩ := cases.2 period high life
  refine ⟨fun none => ?_, fun c x g companion apart found kind => ?_⟩
  · have alone := idle fun c x some => by rw [none] at some; exact nomatch some
    rw [Advance.rise_revised h alone Advance.ownRevised_record rfl rfl stop]
    simp only [Advance.ownRevised, State.setDomain_setDomain]
    rfl
  · have found' : (w.state.setDomain d (some { r with level := .high })).domain c = some x := by
      rw [State.domain_setDomain, if_neg apart, found]
    refine ⟨fun plain => ?_, fun gap pending => ?_⟩
    · obtain ⟨rekeys, _⟩ := runs c x g companion apart found' kind (by simp [Domain.isActive, plain])
      have revised := rekeys (by rw [plain]; nofun)
      rw [Advance.rise_revised h revised Advance.ownRevised_record rfl rfl stop]
      have order : ∀ (u : State) (y : Option Domain) (e : Entry), (u.rekey e).setDomain d y = (u.setDomain d y).rekey e :=
        fun u y e => rfl
      simp only [Advance.ownRevised, State.setDomain_setDomain, order]
      rfl
    · obtain ⟨_, revises⟩ := runs c x g companion apart found' kind (by simp [Domain.isActive, pending])
      have revised := revises gap pending
      have after : ∀ (u : Advance), (u.gapRevised c d x period high (t % period) gap t).state.domain d = u.state.domain d :=
        fun u => (State.domain_setDomain ..).trans (if_neg (Ne.symm apart))
      rw [Advance.rise_revised h revised ((after _).trans Advance.ownRevised_record) rfl rfl stop]
      have order : ∀ (u : State) (y : Option Domain) (e : Entry), (u.rekey e).setDomain d y = (u.setDomain d y).rekey e :=
        fun u y e => rfl
      simp only [Advance.ownRevised, Advance.gapRevised, State.setDomain_setDomain, order]
      rw [State.setDomain_comm _ (Ne.symm apart), State.setDomain_setDomain]
      simp only [List.append_assoc]
      rfl

/-! Pending stops and stop counts (R40, R41, R53, R57, R61, R62) -/

section Stops
variable {w : Advance} {t : Nat} {d : DomainNo} {r : Domain} {p : Primary}

theorem State.companionActive_alone {s : State} (source : r.source = .primary p) (none : p.companion = none) :
    s.companionActive r = false := by
  rw [Bool.eq_false_iff]
  intro active
  obtain ⟨p', c, x, source', companion, _⟩ := State.companionActive_iff.mp active
  cases source.symm.trans source'
  rw [none] at companion
  exact nomatch companion

/-- What step 5 finds at a FALL: the record at level LOW. -/
theorem Advance.fall_pauses {reason : PauseReason} (h : w.state.domain d = some r) (park : r.park = .low)
    (life : r.life = .active (.pause reason)) : w.edge t ⟨t, d, .fall⟩ = { w with
      state := w.state.setDomain d (some { r with level := .low, life := .paused reason })
      entries := w.entries ++ [⟨d, .low, r.subscribers⟩]
      notices := w.notices ++ [(.paused d reason, r.subscribers)] } := by
  rw [Advance.fall_eq h,
    Advance.finish_pauses (kind := .fall) (r := { r with level := .low }) State.domain_written park.symm life]
  simp only [State.setDomain_setDomain]

theorem Advance.fall_retires (h : w.state.domain d = some r) (park : r.park = .low) (life : r.life = .active .retire)
    (source : r.source = .primary p) : w.edge t ⟨t, d, .fall⟩ = { w with
      state := w.state.setDomain d none
      entries := w.entries ++ [⟨d, .low, r.subscribers⟩]
      notices := w.notices ++ [(.retired d, r.subscribers)] } := by
  rw [Advance.fall_eq h,
    Advance.finish_retires (kind := .fall) (r := { r with level := .low }) State.domain_written park.symm life]
  dsimp only
  rw [State.freeDomain_primary (r := { r with level := .low }) State.domain_written source, State.setDomain_setDomain]

/-- A RISE of a record without a stop setting, up to its completion. -/
theorem Advance.rise_unstopped (h : w.state.domain d = some r) (stop : r.stop = none)
    (life : ∀ period high, r.life ≠ .active (.revisePrimary period high)) (alone : w.state.companionActive r = false) :
    w.edge t ⟨t, d, .rise⟩ = Advance.finish { w with
      state := w.state.setDomain d (some (Domain.counted { r with level := .high }))
      entries := w.entries ++ [⟨d, .high, r.subscribers⟩] } d .rise t := by
  rw [Advance.rise_eq h life alone,
    Advance.count_unreached (r := { r with level := .high }) State.domain_written (Domain.reachesStop_absent stop)]
  simp only [State.setDomain_setDomain]

theorem Advance.rise_pauses {reason : PauseReason} (h : w.state.domain d = some r) (stop : r.stop = none)
    (alone : w.state.companionActive r = false) (park : r.park = .high) (life : r.life = .active (.pause reason)) :
    w.edge t ⟨t, d, .rise⟩ = { w with
      state := w.state.setDomain d (some { Domain.counted { r with level := .high } with life := .paused reason })
      entries := w.entries ++ [⟨d, .high, r.subscribers⟩]
      notices := w.notices ++ [(.paused d reason, r.subscribers)] } := by
  rw [Advance.rise_unstopped h stop (by rw [life]; nofun) alone,
    Advance.finish_pauses (kind := .rise) (r := Domain.counted { r with level := .high }) State.domain_written park.symm
      life]
  simp only [State.setDomain_setDomain]
  rfl

theorem Advance.rise_retires (h : w.state.domain d = some r) (stop : r.stop = none)
    (alone : w.state.companionActive r = false) (park : r.park = .high) (life : r.life = .active .retire)
    (source : r.source = .primary p) : w.edge t ⟨t, d, .rise⟩ = { w with
      state := w.state.setDomain d none
      entries := w.entries ++ [⟨d, .high, r.subscribers⟩]
      notices := w.notices ++ [(.retired d, r.subscribers)] } := by
  rw [Advance.rise_unstopped h stop (by rw [life]; nofun) alone,
    Advance.finish_retires (kind := .rise) (r := Domain.counted { r with level := .high }) State.domain_written park.symm
      life]
  dsimp only
  rw [State.freeDomain_primary (r := Domain.counted { r with level := .high }) State.domain_written source,
    State.setDomain_setDomain]
  rfl

/-- Raising an event writes no record. -/
theorem State.domain_raised {s : State} {q : Domain} {e : Event} :
    ((s.setDomain d (some q)).raise e).domain d = some q := State.domain_written

theorem State.setDomain_raise {s : State} {x y : Option Domain} {e : Event} :
    ((s.setDomain d x).raise e).setDomain d y = (s.setDomain d y).raise e :=
  congrArg (State.raise · e) (State.setDomain_setDomain ..)

/-- The four stop actions of (2). -/
theorem Advance.rise_stops {stop : StopSetting} (h : w.state.domain d = some r) (source : r.source = .primary p)
    (alone : p.companion = none) (life : r.life = .active .nothing) (setting : r.stop = some stop)
    (reached : r.count + 1 = stop.count) (small : stop.count < 2 ^ 32) :
    let risen := { r with level := .high, count := stop.count }
    let entries := w.entries ++ [⟨d, .high, r.subscribers⟩]
    let next : Entry := ⟨t + p.high, d, .fall⟩
    (stop.action = .notify → w.edge t ⟨t, d, .rise⟩ = { w with
      state := ((w.state.setDomain d (some risen)).raise (.count d)).insertEntry next
      entries := entries }) ∧
    (stop.action = .stopCabinet → w.edge t ⟨t, d, .rise⟩ = { w with
      state := ((w.state.setDomain d (some risen)).raise (.count d)).insertEntry next
      entries := entries
      breakpoints := w.breakpoints ++ [d] }) ∧
    (stop.action = .pauseDomain → p.park = .low → w.edge t ⟨t, d, .rise⟩ = { w with
      state := ((w.state.setDomain d (some { risen with life := .active (.pause .count) })).raise (.count d)).insertEntry
        next
      entries := entries }) ∧
    (stop.action = .pauseDomain → p.park = .high → w.edge t ⟨t, d, .rise⟩ = { w with
      state := (w.state.setDomain d (some { risen with life := .paused .count })).raise (.count d)
      entries := entries
      notices := w.notices ++ [(.paused d .count, r.subscribers)] }) := by
  intro risen entries next
  have counted : Domain.counted { r with level := .high } = risen := by
    have count : min (2 ^ 32 - 1) (r.count + 1) = stop.count := by omega
    rw [Domain.counted, count]
  have rises := Advance.rise_eq (t := t) h (by rw [life]; nofun) (State.companionActive_alone source alone)
  have stops : ∀ {action}, stop.action = action →
      Domain.reachesStop { r with level := .high } = some action := fun {action} same =>
    Domain.reachesStop_iff.mpr ⟨stop.count, by rw [← same, setting], by dsimp only; omega, reached⟩
  have parked : ∀ {q : Domain}, q.source = r.source → q.park = p.park := fun same => by
    simp only [Domain.park, same, source]
  have installs := fun same => Advance.count_pauses
    (w := ⟨w.state.setDomain d (some { r with level := .high }), entries, w.notices, w.breakpoints⟩)
    State.domain_written (stops (action := .pauseDomain) same) life
    (State.companionActive_alone (r := { r with level := .high }) source alone)
  rw [rises]
  refine ⟨fun same => ?_, fun same => ?_, fun same park => ?_, fun same park => ?_⟩
  · rw [Advance.count_notify State.domain_written (stops same), counted]
    simp only [State.setDomain_setDomain]
    rw [Advance.finish_onward State.domain_raised (.inr (by dsimp only [risen]; rw [life]; exact ⟨nofun, nofun⟩)),
      State.edgeAfter_primary (r := risen) source]
    rfl
  · rw [Advance.count_stopCabinet State.domain_written (stops same), counted]
    simp only [State.setDomain_setDomain]
    rw [Advance.finish_onward State.domain_raised (.inr (by dsimp only [risen]; rw [life]; exact ⟨nofun, nofun⟩)),
      State.edgeAfter_primary (r := risen) source]
    rfl
  · rw [installs same, counted]
    simp only [State.setDomain_setDomain]
    rw [Advance.finish_onward State.domain_raised (.inl ?_),
      State.edgeAfter_primary (r := { risen with life := .active (.pause .count) }) source]
    · rfl
    · intro level
      have different : Level.high = Level.low := level.trans ((parked rfl).trans park)
      nomatch different
  · rw [installs same, counted]
    simp only [State.setDomain_setDomain]
    rw [Advance.finish_pauses (kind := .rise) (r := { risen with life := .active (.pause .count) })
      State.domain_raised ((parked rfl).trans park).symm rfl]
    simp only [State.setDomain_raise]
    rfl

end Stops

/-- Settles O41: the completions, the stop actions, and the count of a record in any state. -/
theorem pendingStopsCompleteAndStopCountsAct : Obligations.PendingStopsCompleteAndStopCountsAct := by
  refine ⟨fun w t d r p reason h source companion stop => ?_, fun w t d r p stop h source companion life setting reached
    small => Advance.rise_stops h source companion life setting reached small, fun w t d r h => ?_⟩
  · have alone := State.companionActive_alone (s := w.state) source companion
    have parked : r.park = p.park := by simp only [Domain.park, source]
    exact ⟨fun park life => Advance.fall_pauses (r := r) h (parked.trans park) life,
      fun park life => Advance.rise_pauses (r := r) h stop alone (parked.trans park) life,
      fun park life => Advance.fall_retires (r := r) h (parked.trans park) life source,
      fun park life => Advance.rise_retires (r := r) h stop alone (parked.trans park) life source⟩
  · refine ⟨fun unreached => ?_, fun reached => Advance.count_notify h (Domain.reachesStop_iff.mpr reached),
      fun reached => Advance.count_stopCabinet h (Domain.reachesStop_iff.mpr reached),
      fun reached life free => Advance.count_pauses h (Domain.reachesStop_iff.mpr reached) life ?_,
      fun reached kept => Advance.count_kept h (Domain.reachesStop_iff.mpr reached)
        (kept.imp_right State.companionActive_iff.mpr), fun kind level row park => ?_⟩
    · refine Advance.count_unreached h (Option.eq_none_iff_forall_ne_some.mpr fun action reached => ?_)
      exact unreached action (Domain.reachesStop_iff.mp reached)
    · rw [Bool.eq_false_iff]
      exact fun active => free (State.companionActive_iff.mp active)
    · have same : kind.level = level := by
        simp only [List.mem_cons, Prod.mk.injEq, List.not_mem_nil, or_false] at row
        rcases row with ⟨rfl, rfl⟩ | ⟨rfl, rfl⟩ <;> rfl
      subst same
      refine ⟨fun reason life => Advance.finish_pauses h park life, fun p life source => ?_,
        fun c parent p life source apart found primary => ?_⟩
      · rw [Advance.finish_retires h park life, State.freeDomain_primary h source]
      · rw [Advance.finish_retires h park life, State.freeDomain_companion h source found primary]

end Sys2Proof.Machine
end

section
/-! SUPPORT. The advance as a whole (R75 to R86, R90): the statements O36, O37 and O38. -/

namespace Sys2Proof.Machine

open Sys2Proof.Safety

/-- Settles O38: the condition, read, and the advance outside it. -/
theorem noAdvanceWithoutItsCondition : Obligations.NoAdvanceWithoutItsCondition :=
  fun _ => ⟨advanceCondition_iff, fun cond => congrArg Host.Outcome.next (if_neg (Bool.eq_false_iff.mp cond))⟩

/-! The stops (R83 to R86) -/

/-- A budget after one set (R84). -/
def Budget.spent : Budget → Budget
  | .sets n => .sets (n - 1)
  | .unlimited => .unlimited
  | .untilTime l => .untilTime l

section Stops
variable {s : State}

theorem State.budgetStop_eq (go : s.runState ≠ .running ∨ ∀ n, s.budget = .sets n → 1 < n) :
    s.budgetStop = { s with budget := s.budget.spent } := by
  unfold State.budgetStop
  split
  · rename_i n budget
    have stays : ¬ (n - 1 = 0 ∧ s.runState = .running) := by
      rintro ⟨last, run⟩
      rcases go with stopped | more
      · exact stopped run
      · have := more n budget
        omega
    rw [budget]
    exact if_neg stays
  · rename_i budget
    rw [budget, Budget.spent, ← budget]
  · rename_i budget
    rw [budget, Budget.spent, ← budget]

theorem State.budgetStop_ends {n : Nat} (budget : s.budget = .sets n) (last : n ≤ 1) (run : s.runState = .running) :
    s.budgetStop = ({ s with budget := s.budget.spent } : State).enterDraining .budget none none none := by
  simp only [State.budgetStop, budget, Budget.spent]
  exact if_pos ⟨by omega, run⟩

theorem State.emptyStop_eq (go : s.runState ≠ .running ∨ s.calendar ≠ []) : s.emptyStop = s :=
  if_neg fun ⟨run, empty⟩ => go.elim (· run) (· empty)

theorem State.emptyStop_ends (run : s.runState = .running) (empty : s.calendar = []) :
    s.emptyStop = s.enterDraining .noEdges none none none := if_pos ⟨run, empty⟩

/-- The run drains with `cause`. -/
def State.DrainsFor (u t : State) (cause : StopCause) (d : Option DomainNo) : Prop :=
  t.runState = .draining ∧ t.stopRecord = ⟨cause, none, d, none, u.time, u.seq⟩

/-- The stops at the end of an advance, when a member has a set outstanding. -/
theorem State.stops_cases (run : s.runState = .running) (waits : ¬ membersClear s) (points : List DomainNo) :
    let t := ((s.breakpointStop points).budgetStop).emptyStop
    t.calendar = s.calendar ∧ t.budget = s.budget.spent ∧
    (∀ d ds, points = d :: ds → s.DrainsFor t .breakpoint (some d)) ∧
    (points = [] → ∀ n, s.budget = .sets n → n ≤ 1 → s.DrainsFor t .budget none) ∧
    (points = [] → (∀ n, s.budget = .sets n → 1 < n) → s.calendar = [] → s.DrainsFor t .noEdges none) ∧
    (points = [] → (∀ n, s.budget = .sets n → 1 < n) → s.calendar ≠ [] →
      t.runState = .running ∧ t.stopRecord = s.stopRecord) := by
  have spentWaits : ¬ membersClear { s with budget := s.budget.spent } := waits
  cases points with
  | cons d ds =>
    have first : s.breakpointStop (d :: ds) = _ := State.enterDraining_waits waits
    rw [first, State.budgetStop_eq (.inl (by nofun)), State.emptyStop_eq (.inl (by nofun))]
    refine ⟨rfl, rfl, fun e es same => ?_, nofun, nofun, nofun⟩
    injection same with same _
    subst same
    exact ⟨rfl, rfl⟩
  | nil =>
    have none : s.breakpointStop [] = s := rfl
    rw [none]
    by_cases last : ∃ n, s.budget = .sets n ∧ n ≤ 1
    · obtain ⟨n, budget, small⟩ := last
      have never : ¬ ∀ n, s.budget = .sets n → 1 < n := fun more => by
        have := more n budget
        omega
      rw [State.budgetStop_ends budget small run, State.enterDraining_waits spentWaits,
        State.emptyStop_eq (.inl (by nofun))]
      exact ⟨rfl, rfl, nofun, fun _ _ _ _ => ⟨rfl, rfl⟩, fun _ more => absurd more never,
        fun _ more => absurd more never⟩
    · have more : ∀ n, s.budget = .sets n → 1 < n := fun n budget => by
        by_contra small
        exact last ⟨n, budget, by omega⟩
      have never : ∀ n, s.budget = .sets n → ¬ n ≤ 1 := fun n budget => by
        have := more n budget
        omega
      rw [State.budgetStop_eq (.inr more)]
      have run' : ({ s with budget := s.budget.spent } : State).runState = .running := run
      by_cases empty : s.calendar = []
      · rw [State.emptyStop_ends run' empty, State.enterDraining_waits spentWaits]
        exact ⟨rfl, rfl, nofun, fun _ n budget small => absurd small (never n budget), fun _ _ _ => ⟨rfl, rfl⟩,
          fun _ _ other => absurd empty other⟩
      · rw [State.emptyStop_eq (s := { s with budget := s.budget.spent }) (.inr empty)]
        exact ⟨rfl, rfl, nofun, fun _ n budget small => absurd small (never n budget),
          fun _ _ none => absurd none empty, fun _ _ _ => ⟨run, rfl⟩⟩

end Stops

/-! The set that is issued (R81, R82, R133, R138) -/

section Issue
variable {s : State} {w : Advance} {t : Nat}

/-- The set and its notices write the number, the time and the board entries. -/
theorem State.issueSet_eq : State.issueSet w t = { w.state with
    seq := w.state.seq + 1
    time := t
    boards := (State.issueSet w t).boards } := by
  conv_lhs => rw [State.issueSet, State.queueNotices_eq, State.deliver_eq]
  rfl

/-- What an advance sends on one link: the copy first, and then the notices (R62, R82). -/
theorem State.board_issueSet (linked : ∀ b, (w.state.board b).member = true → (w.state.board b).link = .linked)
    (b : BoardNo) :
    let copy := copyFrames .edge (w.state.seq + 1) t (w.state.board b).partSize (entriesOf w.entries b)
    let notices := if (w.state.board b).link = .linked then
      (w.notices.filter fun n => Bits.has n.2 b).map fun n => Frame.notice n.1 else []
    ((w.state.board b).member = true → (State.issueSet w t).board b = { w.state.board b with
      outstanding := (w.state.board b).outstanding + 1
      ackTimer := if (w.state.board b).outstanding = 0 then
        some ⟨w.state.clock, w.state.clock + (100 * (w.state.board b).ackBase + 4 * (w.state.board b).roundTrip)⟩
        else (w.state.board b).ackTimer
      txQueue := (w.state.board b).txQueue ++ copy ++ notices }) ∧
    ((w.state.board b).member = false → (State.issueSet w t).board b =
      { w.state.board b with txQueue := (w.state.board b).txQueue ++ notices }) := by
  intro copy notices
  have sent : (State.issueSet w t).board b = _ := State.board_queueNotices ..
  have delivered : ((w.state.stampSet t).deliver .edge t (entriesOf w.entries)).board b = _ := State.board_deliver ..
  refine ⟨fun member => ?_, fun outside => ?_⟩
  · have member' : ((w.state.stampSet t).board b).member = true := member
    rw [if_pos member', Board.receiveCopy_eq] at delivered
    rw [sent, delivered]
    refine (if_pos (decide_eq_true (linked b member))).trans ?_
    simp only [notices, if_pos (linked b member)]
    rfl
  · have outside' : ¬ ((w.state.stampSet t).board b).member = true := by
      exact Bool.eq_false_iff.mp outside
    rw [if_neg outside'] at delivered
    rw [sent, delivered]
    by_cases link : (w.state.board b).link = .linked
    · simp only [notices, if_pos link]
      exact if_pos (decide_eq_true link)
    · simp only [notices, if_neg link, List.append_nil]
      exact if_neg fun same => link (of_decide_eq_true same)

end Issue

/-! Records that an advance leaves alone (R70, R77) -/

/-- The pair links of `q` are links of `r`. -/
def Domain.LinksIn (q r : Domain) : Prop :=
  (∀ c, q.companionNo = some c → r.companionNo = some c) ∧
    ∀ c, q.source = .companion c → ∃ b, r.source = .companion b ∧ b.parent = c.parent

theorem Domain.LinksIn.of_source {q r : Domain} (same : q.source = r.source) : q.LinksIn r := by
  simp only [Domain.LinksIn, Domain.companionNo, same]
  exact ⟨fun _ => id, fun c source => ⟨c, source, rfl⟩⟩

theorem Domain.LinksIn.trans {q r x : Domain} (h : q.LinksIn r) (k : r.LinksIn x) : q.LinksIn x := by
  refine ⟨fun c companion => k.1 c (h.1 c companion), fun c source => ?_⟩
  obtain ⟨b, source', parent⟩ := h.2 c source
  obtain ⟨a, source'', parent'⟩ := k.2 b source'
  exact ⟨a, source'', parent'.trans parent⟩

theorem Domain.linksIn_revisePrimary {r : Domain} (p h t : Nat) : (r.revisePrimary p h t).LinksIn r := by
  unfold Domain.revisePrimary
  split
  · rename_i q source
    simp only [Domain.LinksIn, Domain.companionNo, source]
    exact ⟨fun _ => id, nofun⟩
  · exact .of_source rfl

theorem Domain.linksIn_reviseCompanion {r : Domain} (gap : Nat) : (r.reviseCompanion gap).LinksIn r := by
  unfold Domain.reviseCompanion
  split
  · rename_i c source
    simp only [Domain.LinksIn, Domain.companionNo, source, Source.companion.injEq]
    exact ⟨nofun, fun x same => ⟨c, rfl, by rw [← same]⟩⟩
  · exact .of_source rfl

theorem Domain.linksIn_withCompanion {r : Domain} : (r.withCompanion none).LinksIn r := by
  unfold Domain.withCompanion
  split
  · simp only [Domain.LinksIn, Domain.companionNo]
    exact ⟨nofun, nofun⟩
  · exact .of_source rfl

/-- Every record of `t` stands in `s`, and its pair links with it. -/
def State.LinksFrom (s t : State) : Prop := ∀ e q, t.domain e = some q → ∃ r, s.domain e = some r ∧ q.LinksIn r

theorem State.LinksFrom.refl (s : State) : s.LinksFrom s := fun _ q h => ⟨q, h, .of_source rfl⟩

theorem State.LinksFrom.of_records {s t : State} (same : ∀ e, t.domain e = s.domain e) : s.LinksFrom t :=
  fun e q h => ⟨q, (same e).symm.trans h, .of_source rfl⟩

theorem State.LinksFrom.trans {s t u : State} (h : s.LinksFrom t) (k : t.LinksFrom u) : s.LinksFrom u := by
  intro e q found
  obtain ⟨r, found', links⟩ := k e q found
  obtain ⟨x, found'', links'⟩ := h e r found'
  exact ⟨x, found'', links.trans links'⟩

theorem State.linksFrom_setDomain {s : State} {d : DomainNo} {r : Domain} {q : Option Domain} (h : s.domain d = some r)
    (links : ∀ x, q = some x → x.LinksIn r) : s.LinksFrom (s.setDomain d q) := by
  intro e x found
  rw [State.domain_setDomain] at found
  split at found
  · rename_i same
    exact ⟨r, same ▸ h, links x found⟩
  · exact ⟨x, found, .of_source rfl⟩

theorem State.linksFrom_freeDomain (s : State) (d : DomainNo) : s.LinksFrom (s.freeDomain d) := by
  have freed : ∀ u : State, u.LinksFrom (u.setDomain d none) := fun u e x found => by
    rw [State.domain_setDomain] at found
    split at found
    · exact nomatch found
    · exact ⟨x, found, .of_source rfl⟩
  unfold State.freeDomain
  split
  · refine .trans (State.LinksFrom.trans ?_ (freed _)) (.refl _)
    intro e x found
    unfold State.modifyDomain at found
    rw [State.domain_setDomain] at found
    split at found
    · rename_i same
      obtain ⟨r, record, rfl⟩ := Option.map_eq_some_iff.mp found
      exact ⟨r, same ▸ record, Domain.linksIn_withCompanion⟩
    · exact ⟨x, found, .of_source rfl⟩
  · exact freed s

section Links
variable {w : Advance} {d : DomainNo}

theorem Advance.withRecord_links {k : Domain → Advance}
    (h : ∀ r, w.state.domain d = some r → w.state.LinksFrom (k r).state) :
    w.state.LinksFrom (w.withRecord d k).state := by
  cases found : w.state.domain d with
  | none =>
    rw [Advance.withRecord_none found]
    exact .refl _
  | some r =>
    rw [Advance.withRecord_some found]
    exact h r found

theorem Advance.level_links (w : Advance) (d : DomainNo) (kind : EdgeKind) : w.state.LinksFrom (w.level d kind).state :=
  Advance.withRecord_links fun r found => State.linksFrom_setDomain found fun x same => by
    cases same
    exact .of_source rfl

theorem Advance.revised_links {r q : Domain} (found : w.state.domain d = some r) (links : q.LinksIn r) :
    w.state.LinksFrom (w.revised d q).state :=
  State.linksFrom_setDomain found fun x same => by
    cases same
    exact links

theorem Advance.ownRevision_links (w : Advance) (d : DomainNo) (t : Nat) :
    w.state.LinksFrom (w.ownRevision d t).state :=
  Advance.withRecord_links fun r found => by
    split
    · exact Advance.revised_links found (Domain.linksIn_revisePrimary ..)
    · exact .refl _

theorem Advance.settleCompanion_links (w : Advance) (p : Primary) (c : DomainNo) (t : Nat) (due : Bool) :
    w.state.LinksFrom (w.settleCompanion p c t due).state :=
  Advance.withRecord_links fun x found => by
    have rekeyed : ∀ v : Advance, v.state.LinksFrom (v.rekeyCompanion p c t).state := fun v =>
      .of_records fun e => Advance.rekeyCompanion_records v p c e t
    split
    · exact (Advance.revised_links found (Domain.linksIn_reviseCompanion _)).trans (rekeyed _)
    · split
      · exact rekeyed w
      · exact .refl _
    · exact .refl _
    · exact .refl _

theorem Advance.revision_links (w : Advance) (d : DomainNo) (t : Nat) : w.state.LinksFrom (w.revision d t).state :=
  Advance.withRecord_links fun before _ =>
    (Advance.ownRevision_links w d t).trans (Advance.withRecord_links fun r _ => by
      split
      · exact .refl _
      · split
        · exact .refl _
        · exact Advance.settleCompanion_links _ _ _ _ _)

theorem Domain.countPause_source (s : State) (r : Domain) : (s.countPause r).source = r.source := by
  unfold State.countPause
  split <;> rfl

theorem Advance.count_links (w : Advance) (d : DomainNo) : w.state.LinksFrom (w.count d).state :=
  Advance.withRecord_links fun r found => by
    have put : ∀ q : Domain, q.source = r.source → w.state.LinksFrom (w.state.setDomain d (some q)) := fun q same =>
      State.linksFrom_setDomain found fun x written => by
        cases written
        exact .of_source same
    dsimp only
    split
    · exact put _ rfl
    · exact put _ rfl
    · exact put _ rfl
    · exact put _ (Domain.countPause_source ..)

theorem Advance.finish_links (w : Advance) (d : DomainNo) (kind : EdgeKind) (t : Nat) :
    w.state.LinksFrom (w.finish d kind t).state :=
  Advance.withRecord_links fun r found => by
    have onward : w.state.LinksFrom (w.state.insertEntry (w.state.edgeAfter d r kind t)) := .of_records fun _ => rfl
    dsimp only
    split
    · split
      · exact State.linksFrom_setDomain found fun x same => by
          cases same
          exact .of_source rfl
      · exact State.linksFrom_freeDomain w.state d
      all_goals exact onward
    · exact onward

theorem Advance.edge_links (t : Nat) (w : Advance) (x : Entry) : w.state.LinksFrom (w.edge t x).state := by
  unfold Advance.edge
  split
  · exact (((Advance.level_links _ _ _).trans (Advance.revision_links _ _ _)).trans (Advance.count_links _ _)).trans
      (Advance.finish_links _ _ _ _)
  · exact (Advance.level_links _ _ _).trans (Advance.finish_links _ _ _ _)

end Links

/-- Domain `e` is another than `d`, and no pair joins them from `e`'s side. -/
def State.Apart (s : State) (d e : DomainNo) : Prop :=
  e ≠ d ∧ ∀ r, s.domain e = some r → r.companionNo ≠ some d ∧ ∀ c, r.source = .companion c → c.parent ≠ d

theorem State.Apart.of_links {s t : State} {d e : DomainNo} (h : s.Apart d e) (links : s.LinksFrom t) : t.Apart d e := by
  refine ⟨h.1, fun q found => ?_⟩
  obtain ⟨r, found', kept⟩ := links e q found
  obtain ⟨companion, parent⟩ := h.2 r found'
  refine ⟨fun same => companion (kept.1 d same), fun c source => ?_⟩
  obtain ⟨b, source', same⟩ := kept.2 c source
  exact same ▸ parent b source'

section Other
variable {w : Advance} {d e : DomainNo} {t : Nat}

theorem Advance.revision_other (apart : w.state.Apart d e) : (w.revision e t).state.domain d = w.state.domain d := by
  refine Advance.withRecord_other fun before _ => ?_
  have own := Advance.ownRevision_other w t (Ne.symm apart.1)
  refine (Advance.withRecord_other fun r found => ?_).trans own
  have links := (apart.of_links (Advance.ownRevision_links w e t)).2 r found
  split
  · rfl
  · rename_i p source
    split
    · rfl
    · rename_i c companion
      have named : r.companionNo = some c := by simp only [Domain.companionNo, source, companion]
      refine Advance.settleCompanion_other _ _ _ _ fun same => links.1 ?_
      rw [named, same]

/-- An edge leaves a record apart from its own alone. -/
theorem Advance.edge_other {x : Entry} (apart : w.state.Apart d x.domain) :
    (w.edge t x).state.domain d = w.state.domain d := by
  have other := Ne.symm apart.1
  have finish : ∀ (v : Advance) kind, w.state.LinksFrom v.state →
      (v.finish x.domain kind t).state.domain d = v.state.domain d := fun v kind links =>
    Advance.finish_other v kind t other fun r c found source => ((apart.of_links links).2 r found).2 c source
  have level := Advance.level_links w x.domain
  unfold Advance.edge
  split
  · have revision := (level .rise).trans (Advance.revision_links _ x.domain t)
    rw [finish _ _ (revision.trans (Advance.count_links _ _)), Advance.count_other _ other,
      Advance.revision_other (apart.of_links (level .rise)), Advance.level_other _ _ other]
  · rw [finish _ _ (level .fall), Advance.level_other _ _ other]

theorem Advance.edges_other {l : List Entry} (apart : ∀ x ∈ l, w.state.Apart d x.domain) :
    (l.foldl (Advance.edge t) w).state.domain d = w.state.domain d := by
  induction l generalizing w with
  | nil => rfl
  | cons x l ih =>
    rw [List.foldl_cons, ih fun y mem => (apart y (List.mem_cons_of_mem x mem)).of_links (Advance.edge_links t w x),
      Advance.edge_other (apart x List.mem_cons_self)]

theorem State.processGroup_other {s : State} (apart : ∀ x ∈ s.calendar, x.time = t → s.Apart d x.domain) :
    (s.processGroup t).state.domain d = s.domain d :=
  Advance.edges_other (w := ⟨{ s with calendar := s.calendar.filter fun e => !decide (e.time = t) }, [], [], []⟩)
    fun x mem => by
      obtain ⟨found, now⟩ := List.mem_filter.mp mem
      exact apart x found (of_decide_eq_true now)

end Other

/-! The advance that issues (R75, R81 to R86) -/

section Issued
variable {s : State} {t : Nat}

theorem State.processGroup_boards : (s.processGroup t).state.boards = s.boards := by
  have outside := s.processGroup_outside t
  unfold State.SameOutside at outside
  rw [outside]

theorem State.processGroup_board (b : BoardNo) : (s.processGroup t).state.board b = s.board b :=
  State.board_of_boards State.processGroup_boards b

/-- The state after the set and its notices, before the stops. -/
theorem State.issued_eq : State.issueSet (s.processGroup t) t = { s with
    records := (s.processGroup t).state.records
    calendar := (s.processGroup t).state.calendar
    events := (s.processGroup t).state.events
    seq := s.seq + 1
    time := t
    boards := (State.issueSet (s.processGroup t) t).boards } := by
  have outside := s.processGroup_outside t
  unfold State.SameOutside at outside
  refine State.issueSet_eq.trans ?_
  generalize (State.issueSet (s.processGroup t) t).boards = boards
  exact congrArg (fun v : State => { v with seq := v.seq + 1, time := t, boards := boards }) outside

/-- The board entries before the stops. -/
theorem State.issued_board (cond : s.advanceCondition = true) (b : BoardNo) :
    let w := s.processGroup t
    let copy := copyFrames .edge (s.seq + 1) t (s.board b).partSize (entriesOf w.entries b)
    let notices := if (s.board b).link = .linked then
      (w.notices.filter fun n => Bits.has n.2 b).map fun n => Frame.notice n.1 else []
    ((s.board b).member = true → (State.issueSet w t).board b = { s.board b with
      outstanding := (s.board b).outstanding + 1
      ackTimer := if (s.board b).outstanding = 0 then
        some ⟨s.clock, s.clock + (100 * (s.board b).ackBase + 4 * (s.board b).roundTrip)⟩ else (s.board b).ackTimer
      txQueue := (s.board b).txQueue ++ copy ++ notices }) ∧
    ((s.board b).member = false →
      (State.issueSet w t).board b = { s.board b with txQueue := (s.board b).txQueue ++ notices }) := by
  intro w copy notices
  have outside := s.processGroup_outside t
  unfold State.SameOutside at outside
  have clock : (s.processGroup t).state.clock = s.clock := by rw [outside]
  have seq : (s.processGroup t).state.seq = s.seq := by rw [outside]
  obtain ⟨_, _, ready⟩ := advanceCondition_iff.mp cond
  have entry := State.board_issueSet (w := w) (t := t) (fun b member => by
    rw [State.processGroup_board] at member ⊢
    exact (ready b member).1) b
  simpa only [w, State.processGroup_board, clock, seq] using entry

theorem State.issued_waits (cond : s.advanceCondition = true) (some : ∃ b, (s.board b).member = true) :
    ¬ membersClear (State.issueSet (s.processGroup t) t) := by
  obtain ⟨b, member⟩ := some
  intro clear
  have entry := (State.issued_board (t := t) cond b).1 member
  have none := clear b (by rw [entry]; exact member)
  rw [entry] at none
  exact Nat.succ_ne_zero _ none

theorem State.advance_issues {x : Entry} {rest : List Entry} (cond : s.advanceCondition = true)
    (head : s.calendar = x :: rest) (limit : x.time < 2 ^ 48)
    (until_ : ∀ limit, s.budget = .untilTime limit → x.time ≤ limit) :
    exec .advance s = .next (((State.issueSet (s.processGroup x.time) x.time).breakpointStop
      (s.processGroup x.time).breakpoints).budgetStop).emptyStop := execAdvance_issues cond head limit until_

/-- A head time that the limit checks refuse (R76). -/
theorem State.advance_refused {x : Entry} {rest : List Entry} {cause : StopCause} (cond : s.advanceCondition = true)
    (head : s.calendar = x :: rest) (beyond : 2 ^ 48 ≤ x.time ∧ cause = .timeLimit ∨
      x.time < 2 ^ 48 ∧ (∃ limit, s.budget = .untilTime limit ∧ limit < x.time) ∧ cause = .budget) :
    exec .advance s = .next (s.enterDraining cause none none none) := by
  have taken : exec .advance s = .next (s.advanceAt x.time) := by
    change execAdvance s = _
    rw [execAdvance, if_pos cond, head]
  rw [taken, State.advanceAt]
  rcases beyond with ⟨range, rfl⟩ | ⟨range, ⟨limit, budget, past⟩, rfl⟩
  · rw [if_pos (by unfold Config.timeLimit; omega)]
  · have passed : s.budget.past x.time = true := by
      rw [budget]
      exact decide_eq_true past
    rw [if_neg (by unfold Config.timeLimit; omega), if_pos passed]

end Issued

/-- Settles O37: the stops in their order, and the limit checks. -/
theorem theAdvanceStopsForOneCause : Obligations.TheAdvanceStopsForOneCause := by
  refine ⟨fun s x rest cond any head limit until_ => ?_, fun s x rest cause cond head beyond => ?_⟩
  · have form := State.issued_eq (s := s) (t := x.time)
    obtain ⟨run, _⟩ := advanceCondition_iff.mp cond
    have waits := State.issued_waits (t := x.time) cond ((State.anyMember_iff s).mp any)
    have advances := State.advance_issues cond head limit until_
    generalize State.issueSet (s.processGroup x.time) x.time = u at form waits advances
    have budget : u.budget = s.budget := by rw [form]
    have time : u.time = x.time := by rw [form]
    have seq : u.seq = s.seq + 1 := by rw [form]
    have record : u.stopRecord = s.stopRecord := by rw [form]
    have cases := State.stops_cases (by rw [form]; exact run) waits (s.processGroup x.time).breakpoints
    simp only [State.DrainsFor, budget, time, seq, record] at cases
    obtain ⟨calendar, spent, point, last, empty, onward⟩ := cases
    refine ⟨_, advances, fun n sets => by rw [spent, sets]; rfl, fun other => ?_, point, last, ?_, ?_⟩
    · rw [spent]
      cases kind : s.budget with
      | sets n => exact absurd kind (other n)
      | unlimited => rfl
      | untilTime l => rfl
    · rw [calendar]
      exact empty
    · rw [calendar]
      exact onward
  · rw [State.advance_refused cond head beyond]
    exact ⟨fun waits => congrArg Host.Outcome.next (State.enterDraining_waits waits),
      fun clear => congrArg Host.Outcome.next (State.enterDraining_completes clear)⟩

/-- In a strictly sorted calendar the head group stands first (R67). -/
theorem Calendar.group_first {t : Nat} {l : List Entry} (sorted : l.Pairwise fun y z => y.before z = true)
    (first : ∀ y ∈ l, t ≤ y.time) :
    l = l.filter (fun e => decide (e.time = t)) ++ l.filter fun e => !decide (e.time = t) := by
  induction l with
  | nil => rfl
  | cons y l ih =>
    obtain ⟨before, sorted⟩ := List.pairwise_cons.mp sorted
    by_cases now : y.time = t
    · rw [List.filter_cons_of_pos (by simpa using now), List.filter_cons_of_neg (by simpa using now), List.cons_append,
        ← ih sorted fun z mem => first z (List.mem_cons_of_mem y mem)]
    · have later : ∀ z ∈ y :: l, z.time ≠ t := fun z mem => by
        have start := first y List.mem_cons_self
        rcases List.mem_cons.mp mem with rfl | mem
        · exact now
        · have order : y.time < z.time ∨ y.time = z.time ∧ y.domain.val < z.domain.val :=
            of_decide_eq_true (before z mem)
          omega
      rw [List.filter_eq_nil_iff.mpr fun z mem => by simpa using later z mem,
        List.filter_eq_self.mpr fun z mem => by simpa using later z mem, List.nil_append]

theorem State.board_holdTimersOff (s : State) (b : BoardNo) :
    (holdTimersOff s)[b.val] = { s.board b with holdTimer := none } := by
  simp only [holdTimersOff, Vector.getElem_ofFn]

/-- Settles O36: the issued set with its stops, and the head group of a sorted calendar. -/
theorem anAdvanceIssuesOneSet : Obligations.AnAdvanceIssuesOneSet := by
  constructor
  · intro s x rest cond head limit until_ w copy notices
    have form := State.issued_eq (s := s) (t := x.time)
    have entry := State.issued_board (t := x.time) cond
    have waits := State.issued_waits (t := x.time) cond
    obtain ⟨run, _⟩ := advanceCondition_iff.mp cond
    have ends := State.endsAs_stops (State.issueSet w x.time) w.breakpoints
    refine ⟨_, State.advance_issues cond head limit until_, ?_⟩
    have untouched : ∀ d : DomainNo, (∀ y ∈ s.calendar, y.time = x.time → y.domain ≠ d ∧
        ∀ r, s.domain y.domain = some r → r.companionNo ≠ some d ∧ ∀ c, r.source = .companion c → c.parent ≠ d) →
        w.state.domain d = s.domain d := fun d apart => State.processGroup_other apart
    change State.EndsAs _ (((State.issueSet w x.time).breakpointStop w.breakpoints).budgetStop).emptyStop at ends
    generalize (((State.issueSet w x.time).breakpointStop w.breakpoints).budgetStop).emptyStop = t at ends ⊢
    dsimp only at entry
    change State.EndsAs (State.issueSet (s.processGroup x.time) x.time) t at ends
    generalize State.issueSet (s.processGroup x.time) x.time = u at form entry waits ends
    have domain : ∀ d, u.domain d = w.state.domain d := fun d => by
      rw [form]
      rfl
    rcases ends with ⟨budget, rfl⟩ | ⟨budget, stops, record, events, rfl, ended, raised⟩
    · have runs : u.runState = .running := by
        rw [form]
        exact run
      refine ⟨by rw [form], by rw [form], by rw [form], by rw [form], by rw [form], fun _ => by rw [form],
        fun b => ⟨fun member => ?_, fun outside => ?_⟩, fun d apart => (domain d).trans (untouched d apart), ?_⟩
      · rw [if_pos runs]
        exact (entry b).1 member
      · rw [if_pos runs]
        exact (entry b).2 outside
      · rw [form]
        exact ⟨rfl, rfl, rfl, rfl, rfl, rfl, rfl, rfl, rfl, rfl, rfl, rfl, rfl, rfl⟩
    · have off : ∀ b, ({ u with
          budget := budget
          runState := stops
          stopRecord := record
          boards := holdTimersOff u
          events := events } : State).board b = { u.board b with holdTimer := none } := State.board_holdTimersOff u
      have standing : u.events = w.state.events := by rw [form]
      refine ⟨by rw [form], by rw [form], by rw [form], by rw [form], ?_, fun some => ?_,
        fun b => ⟨fun member => ?_, fun outside => ?_⟩, fun d apart => (domain d).trans (untouched d apart), ?_⟩
      · rcases raised with same | ⟨same, _⟩ <;> simp only [same, standing]
      · rcases raised with same | ⟨_, clear⟩
        · exact same.trans standing
        · exact absurd clear (waits some)
      · rw [if_neg ended, off, (entry b).1 member]
        rfl
      · rw [if_neg ended, off, (entry b).2 outside]
      · rw [form]
        exact ⟨rfl, rfl, rfl, rfl, rfl, rfl, rfl, rfl, rfl, rfl, rfl, rfl, rfl, rfl⟩
  · intro s x rest head sorted
    have first : ∀ y ∈ s.calendar, x.time ≤ y.time := fun y mem => by
      rw [head] at sorted mem
      rcases List.mem_cons.mp mem with rfl | mem
      · exact le_refl _
      · have order : x.time < y.time ∨ x.time = y.time ∧ x.domain.val < y.domain.val :=
          of_decide_eq_true ((List.pairwise_cons.mp sorted).1 y mem)
        omega
    refine ⟨_, _, Calendar.group_first sorted first, fun y mem => of_decide_eq_true (List.mem_filter.mp mem).2,
      fun y mem => ?_, ?_, rfl⟩
    · obtain ⟨found, later⟩ := List.mem_filter.mp mem
      have start := first y found
      have apart : y.time ≠ x.time := by simpa using later
      omega
    · refine (sorted.filter _).imp_of_mem fun {y z} memY memZ before => ?_
      have nowY : y.time = x.time := of_decide_eq_true (List.mem_filter.mp memY).2
      have nowZ : z.time = x.time := of_decide_eq_true (List.mem_filter.mp memZ).2
      have order : y.time < z.time ∨ y.time = z.time ∧ y.domain.val < z.domain.val := of_decide_eq_true before
      omega

end Sys2Proof.Machine
end

section
/-! SUPPORT. The idle step and the due events (R75, R89, R90, R116, R145, R155, R165, R184): the statement O2. -/

namespace Sys2Proof.Machine

open Sys2Proof.Safety

/-! The grant's command -/

theorem RecordKind.code_of_ofCode {code : Byte} {k : RecordKind} (h : RecordKind.ofCode code = some k) :
    k.code = code := eq_of_beq (List.find?_some (p := fun k : RecordKind => k.code == code) h)

/-- The codes of no request. -/
theorem RecordKind.ofCode_none_iff {code : Byte} : RecordKind.ofCode code = none ↔ code = 0x00#8 ∨ 0x0E#8 < code := by
  revert code
  decide

/-- The commands of the record requests, with their codes (R165, R184). -/
def grantRows : List (Byte × Instr) :=
  [(0x01#8, .create), (0x02#8, .find), (0x03#8, .lookup), (0x04#8, .list), (0x05#8, .listFrom), (0x06#8, .attach),
    (0x07#8, .detach), (0x08#8, .start), (0x09#8, .resume), (0x0A#8, .revise), (0x0B#8, .pause), (0x0C#8, .retire),
    (0x0D#8, .cancel), (0x0E#8, .setStop)]

theorem grantRows_codes : ∀ code ∈ grantRows.map Prod.fst, RecordKind.ofCode code ≠ none := by decide

theorem grantCommand_iff {code : Byte} {c : Instr} : c = grantCommand code ↔
    (code = 0x00#8 ∨ 0x0E#8 < code) ∧ c = .unknownRequestKind ∨ (code, c) ∈ grantRows := by
  cases kind : RecordKind.ofCode code with
  | none =>
    have outside := RecordKind.ofCode_none_iff.mp kind
    have unlisted : (code, c) ∉ grantRows := fun row => grantRows_codes code (List.mem_map_of_mem row) kind
    simp only [grantCommand, kind, outside, unlisted, true_and, or_false]
  | some k =>
    have inside : ¬ (code = 0x00#8 ∨ 0x0E#8 < code) := fun out => by
      rw [RecordKind.ofCode_none_iff.mpr out] at kind
      exact nomatch kind
    have same := RecordKind.code_of_ofCode kind
    subst same
    simp only [grantCommand, kind, inside, false_and, false_or]
    cases k <;> simp [grantRows, RecordKind.code]

/-! The due events -/

theorem mem_whenDue {clock : Nat} {deadline : Option Nat} {c e : Instr} :
    c ∈ whenDue clock deadline e ↔ ∃ t, deadline = some t ∧ t ≤ clock ∧ c = e := by
  cases deadline with
  | none => simp [whenDue]
  | some t => by_cases due : t ≤ clock <;> simp [whenDue, due]

theorem Phase.deadline_iff {p : Phase} {t : Nat} : p.deadline = some t ↔ p = .initialising t := by
  cases p <;> simp [Phase.deadline]

theorem Link.probeDeadline_iff {l : Link} {n : Nat} :
    l.probeDeadline = some n ↔ ∃ t, l = .training t ∧ t.sent + 10000 = n := by
  cases l <;> simp [Link.probeDeadline, Training.deadline, Config.probeWait]

theorem Board.mem_dueEvents {e : Board} {clock : Nat} {b : BoardNo} {c : Instr} : c ∈ e.dueEvents clock b ↔
    (∃ t, e.link = .training t ∧ t.sent + 10000 ≤ clock ∧ c = .probeAnswerTimeout b) ∨
    (∃ t, e.ackTimer = some t ∧ t.deadline ≤ clock ∧ c = .ackTimeout b) ∨
    ∃ t, e.holdTimer = some t ∧ t ≤ clock ∧ c = .holdTimeout b := by
  simp only [Board.dueEvents, List.mem_append, mem_whenDue, or_assoc, Option.map_eq_some_iff]
  refine or_congr ?_ (or_congr ?_ Iff.rfl)
  · constructor
    · rintro ⟨n, deadline, due, event⟩
      obtain ⟨t, link, rfl⟩ := Link.probeDeadline_iff.mp deadline
      exact ⟨t, link, due, event⟩
    · rintro ⟨t, link, due, event⟩
      exact ⟨_, Link.probeDeadline_iff.mpr ⟨t, link, rfl⟩, due, event⟩
  · constructor
    · rintro ⟨_, ⟨t, timer, rfl⟩, due, event⟩
      exact ⟨t, timer, due, event⟩
    · rintro ⟨t, timer, due, event⟩
      exact ⟨_, ⟨t, timer, rfl⟩, due, event⟩

theorem State.mem_dueEvents {s : State} {c : Instr} : c ∈ s.dueEvents ↔
    (∃ t, s.phase = .initialising t ∧ t ≤ s.clock ∧ c = .resetInitialisationComplete) ∨
    (∃ b, c ∈ (s.board b).dueEvents s.clock b) ∨ (∃ g, s.nextGrant = some g ∧ c = grantCommand g.code) ∨
    s.advanceCondition = true ∧ c = .advance := by
  have grant : c ∈ (s.nextGrant.map fun g => grantCommand g.code).toList ↔
      ∃ g, s.nextGrant = some g ∧ c = grantCommand g.code := by
    rw [Option.mem_toList, Option.map_eq_some_iff]
    exact exists_congr fun g => and_congr_right fun _ => eq_comm
  have advance : (c ∈ if s.advanceCondition = true then [Instr.advance] else []) ↔
      s.advanceCondition = true ∧ c = .advance := by
    split <;> rename_i cond <;> simp [cond]
  simp only [State.dueEvents, List.mem_append, mem_whenDue, Phase.deadline_iff, List.mem_flatMap, grant, advance,
    allBoards, List.mem_finRange, true_and, or_assoc]

/-! The idle step -/

theorem State.sendFrames_board (s : State) (b : BoardNo) :
    s.sendFrames.boards[b] = s.board b ∨ s.sendFrames.boards[b] = (s.board b).sendHead := by
  have read : ∀ u : State, u.boards[b] = u.board b := fun u => rfl
  rw [read, State.sendFrames, State.board_mapBoards]
  split
  · exact .inr rfl
  · exact .inl rfl

theorem State.takeUp_choice (c : Instr) (cs : List Instr) (n : Nat) :
    (c :: cs).getD (n % (cs.length + 1)) c ∈ c :: cs := by
  have inside : n % (cs.length + 1) < (c :: cs).length := Nat.mod_lt _ (Nat.succ_pos _)
  rw [List.getD_eq_getElem _ _ inside]
  exact List.getElem_mem inside

theorem State.idle_tick {s : State} (none : s.dueEvents = []) : s.idle = s.tick := by
  rw [State.idle, none]

theorem State.idle_takeUp {s : State} {c : Instr} {cs : List Instr} (due : s.dueEvents = c :: cs) :
    s.idle = s.takeUp c cs := by
  rw [State.idle, due]

theorem State.mapBoards_eq (s : State) (f : BoardNo → Board → Board) :
    s.mapBoards f = { s with boards := (s.mapBoards f).boards } := rfl

/-- One period of REFCLK writes the board entries, the clock and the free-running counter. -/
theorem State.tick_eq (s : State) : s.tick = { s with
    boards := s.sendFrames.boards
    clock := s.clock + 1
    freeCount := s.freeCount + 1 } := by
  have sent : s.sendFrames = { s with boards := s.sendFrames.boards } := State.mapBoards_eq s _
  rw [State.tick]
  generalize s.sendFrames = u at sent ⊢
  rw [sent]

/-- Settles O2: the idle step, and the due events with their conditions. -/
theorem emptyQueueIdles : Obligations.EmptyQueueIdles := by
  refine ⟨fun s empty => ?_, fun s c => ?_⟩
  · have idles : step s = .next s.idle := by rw [step, empty]
    have sent := s.sendFrames_board
    constructor
    · intro none
      have ticks : step s = .next { s with
          boards := s.sendFrames.boards
          clock := s.clock + 1
          freeCount := s.freeCount + 1 } := idles.trans (congrArg Host.Outcome.next ((State.idle_tick none).trans s.tick_eq))
      generalize s.sendFrames.boards = boards at ticks sent
      exact ⟨boards, ticks, sent⟩
    · intro due
      obtain ⟨c, cs, events⟩ := List.exists_cons_of_ne_nil due
      refine ⟨(c :: cs).getD (Config.freeChoice s.freeCount % (cs.length + 1)) c, ?_,
        idles.trans (congrArg Host.Outcome.next (State.idle_takeUp events))⟩
      rw [events]
      exact State.takeUp_choice c cs _
  · have boards : (∃ b, c ∈ (s.board b).dueEvents s.clock b) ↔
        (∃ b t, (s.board b).link = .training t ∧ t.sent + 10000 ≤ s.clock ∧ c = .probeAnswerTimeout b) ∨
        (∃ b t, (s.board b).ackTimer = some t ∧ t.deadline ≤ s.clock ∧ c = .ackTimeout b) ∨
        ∃ b t, (s.board b).holdTimer = some t ∧ t ≤ s.clock ∧ c = .holdTimeout b := by
      simp only [Board.mem_dueEvents, exists_or]
    simp only [State.mem_dueEvents, boards, or_assoc, grantCommand_iff, grantRows]

end Sys2Proof.Machine
end

section
/-! SUPPORT. The layouts of the records, the events and the frames that the CT64 sends (R182, R183, R186, R187): the
statement O46. -/

namespace Sys2Proof.Machine

open Sys2Proof.Safety

/-! Numbers of several bytes (R170, R182) -/

theorem Bytes.foldl_be (n v a : Nat) :
    (Bytes.be n v).foldl (fun a (b : Byte) => a * 256 + b.toNat) a = a * 256 ^ n + v % 256 ^ n := by
  induction n generalizing a with
  | zero => simp [Bytes.be, Nat.mod_one]
  | succ n ih =>
    have split : v % 256 ^ (n + 1) = v % 256 ^ n + 256 ^ n * (v / 256 ^ n % 256) := by
      rw [Nat.pow_succ, Nat.mod_mul]
    rw [Bytes.be, List.foldl_cons, ih, split, BitVec.toNat_ofNat, Nat.pow_succ]
    ring

theorem Bytes.toNat_be (n v : Nat) : Bytes.toNat (Bytes.be n v) = v % 256 ^ n := by
  rw [Bytes.toNat, Bytes.foldl_be, Nat.zero_mul, Nat.zero_add]

/-! The run record (R100, R101) -/

theorem Budget.bytes_eq (b : Budget) : b.bytes = match b with
    | .unlimited => [0, 0, 0, 0, 0, 0, 0]
    | .sets n => 0x01#8 :: Bytes.be 6 n
    | .untilTime l => 0x02#8 :: Bytes.be 6 l := by
  cases b <;> rfl

theorem Budget.length_bytes (b : Budget) : b.bytes.length = 7 := by
  cases b <;> rfl

theorem State.length_runRecord (s : State) : s.runRecord.length = 34 := by
  simp [State.runRecord, StopRecord.bytes, Budget.length_bytes, Bytes.length_be]

/-- A presence flag is read from the field that it announces. -/
theorem presence_flag {α : Type} (x : Option α) (n : Nat) :
    (if x.isSome = true then n else 0) = if x = none then 0 else n := by
  cases x <;> rfl

theorem StopRecord.bytes_eq (c : StopRecord) : c.bytes =
    [c.cause.byte,
      BitVec.ofNat 8 ((if c.board = none then 0 else 1) + (if c.domain = none then 0 else 2) +
        (if c.code = none then 0 else 4)),
      (match c.board with
        | some b => BitVec.ofNat 8 b.val
        | none => 0x00#8),
      (match c.domain with
        | some d => BitVec.ofNat 8 d.val
        | none => 0x00#8),
      (match c.code with
        | some x => x
        | none => 0x00#8)] ++ Bytes.be 6 c.time ++ Bytes.be 4 c.seq.toNat := by
  obtain ⟨cause, board, domain, code, time, seq⟩ := c
  simp only [StopRecord.bytes, presence_flag]
  cases board <;> cases domain <;> cases code <;> rfl

theorem exec_readRun {s : State} (h : s.frameStatus = .ready) :
    exec (.readRun []) s = .next (answered s 0x26#8 .ok s.runRecord 0) :=
  exec_answers (body := answerReadRun) rfl h rfl h rfl

/-! The domain snapshot (R30) -/

/-- One of the fields that bytes are made of. -/
theorem slice_flatten {α : Type} {fields : List (List α)} {tail x : List α} {lengths : List Nat}
    (sizes : fields.map List.length = lengths) {k : Nat} (field : fields[k]? = some x) :
    ((fields.flatten ++ tail).drop (lengths.take k).sum).take x.length = x := by
  subst sizes
  induction fields generalizing k with
  | nil => exact nomatch field
  | cons y fields ih =>
    cases k with
    | zero =>
      cases field
      simp
    | succ k =>
      simp only [List.flatten_cons, List.append_assoc, List.map_cons, List.take_succ_cons, List.sum_cons]
      rw [← List.drop_drop, List.drop_left]
      exact ih field

/-- The fields of a snapshot up to the subscriptions, in the order of R187. -/
def State.snapshotFields (s : State) (d : DomainNo) (r : Domain) : List (List Byte) :=
  [[DomainNo.byte d, r.life.byte], Bytes.be 2 r.label, [r.owner.byte], [r.source.byte, r.park.byte],
    Bytes.be 2 (s.wave r).period ++ Bytes.be 2 (s.wave r).high ++ Bytes.be 2 (s.wave r).phase, r.source.linkBytes,
    r.level.byte :: (Bytes.be 2 r.generation.toNat ++ Bytes.be 4 r.count), stopBytes r.stop,
    nextEdgeBytes (if r.isActive then s.nextEdge d else none), r.life.pendingBytes,
    [r.life.pauseByte, BitVec.ofNat 8 (Bits.card r.subscribers)]]

theorem State.snapshot_eq (s : State) (who : Owner) (d : DomainNo) (r : Domain) :
    s.snapshot who d r = (s.snapshotFields d r).flatten ++ subscriberBytes who r.subscribers := by
  simp only [State.snapshot, State.snapshotFields, List.flatten_cons, List.flatten_nil, List.append_assoc,
    List.cons_append, List.nil_append, List.append_nil]

theorem Source.length_linkBytes (x : Source) : x.linkBytes.length = 3 := by
  cases x <;> rfl

theorem length_stopBytes (x : Option StopSetting) : (stopBytes x).length = 5 := by
  cases x <;> rfl

theorem length_nextEdgeBytes (x : Option Entry) : (nextEdgeBytes x).length = 9 := by
  cases x <;> rfl

theorem Life.length_pendingBytes (x : Life) : x.pendingBytes.length = 6 := by
  rcases x with _ | (_ | _ | _ | _ | _) | _ <;> rfl

theorem State.snapshotFields_lengths (s : State) (d : DomainNo) (r : Domain) :
    (s.snapshotFields d r).map List.length = [2, 2, 1, 2, 6, 3, 7, 5, 9, 6, 2] := by
  simp [State.snapshotFields, Bytes.length_be, Source.length_linkBytes, length_stopBytes, length_nextEdgeBytes,
    Life.length_pendingBytes]

theorem State.length_snapshotFields (s : State) (d : DomainNo) (r : Domain) :
    (s.snapshotFields d r).flatten.length = 45 := by
  rw [List.length_flatten, State.snapshotFields_lengths]
  rfl

/-- A field of the snapshot, at its offset. -/
theorem State.snapshot_field {s : State} (who : Owner) {d : DomainNo} {r : Domain} {k : Nat} {x : List Byte}
    (field : (s.snapshotFields d r)[k]? = some x) :
    ((s.snapshot who d r).drop (([2, 2, 1, 2, 6, 3, 7, 5, 9, 6, 2] : List Nat).take k).sum).take x.length = x := by
  rw [State.snapshot_eq]
  exact slice_flatten (State.snapshotFields_lengths s d r) field

/-- The bytes `n` from `i` on are the field `x`. -/
theorem State.snapshot_bytes {s : State} (who : Owner) {d : DomainNo} {r : Domain} (k : Nat) {i n : Nat}
    {x : List Byte} (field : (s.snapshotFields d r)[k]? = some x)
    (offset : (([2, 2, 1, 2, 6, 3, 7, 5, 9, 6, 2] : List Nat).take k).sum = i) (size : x.length = n) :
    ((s.snapshot who d r).drop i).take n = x := by
  subst offset size
  exact State.snapshot_field who field

theorem State.snapshot_tail (s : State) (who : Owner) (d : DomainNo) (r : Domain) :
    (s.snapshot who d r).drop 45 = subscriberBytes who r.subscribers := by
  rw [State.snapshot_eq, ← State.length_snapshotFields s d r, List.drop_left]

theorem State.length_snapshot (s : State) (who : Owner) (d : DomainNo) (r : Domain) :
    (s.snapshot who d r).length = 45 + (subscriberBytes who r.subscribers).length := by
  rw [State.snapshot_eq, List.length_append, State.length_snapshotFields]

theorem stopBytes_eq (x : Option StopSetting) : stopBytes x = match x with
    | none => [0x00#8, 0x00#8, 0x00#8, 0x00#8, 0x00#8]
    | some ⟨n, .pauseDomain⟩ => 0x01#8 :: Bytes.be 4 n
    | some ⟨n, .stopCabinet⟩ => 0x02#8 :: Bytes.be 4 n
    | some ⟨n, .notify⟩ => 0x03#8 :: Bytes.be 4 n := by
  rcases x with _ | ⟨n, action⟩
  · rfl
  · cases action <;> rfl

theorem Life.pendingBytes_eq (x : Life) : x.pendingBytes = match x with
    | .active .nothing => [0x01#8, 0x00#8, 0x00#8, 0x00#8, 0x00#8, 0x00#8]
    | .active (.revisePrimary period high) => 0x02#8 :: (Bytes.be 2 period ++ Bytes.be 2 high ++ [0x00#8])
    | .active (.reviseCompanion gap) => [0x02#8, 0x00#8, 0x00#8, 0x00#8, 0x00#8, BitVec.ofNat 8 gap]
    | .active (.pause _) => [0x03#8, 0x00#8, 0x00#8, 0x00#8, 0x00#8, 0x00#8]
    | .active .retire => [0x04#8, 0x00#8, 0x00#8, 0x00#8, 0x00#8, 0x00#8]
    | .defined => List.replicate 6 0x00#8
    | .paused _ => List.replicate 6 0x00#8 := by
  rcases x with _ | pending | reason
  · rfl
  · cases pending with
    | reviseCompanion gap => simp [Life.pendingBytes, Bytes.be]
    | _ => rfl
  · rfl

theorem Life.pauseByte_eq (x : Life) : x.pauseByte = match x with
    | .paused .requested => 0x01#8
    | .paused .count => 0x02#8
    | .defined => 0x00#8
    | .active _ => 0x00#8 := by
  rcases x with _ | pending | reason
  · rfl
  · rfl
  · cases reason <;> rfl

theorem Life.byte_eq (x : Life) : x.byte = match x with
    | .defined => 0x01#8
    | .active _ => 0x02#8
    | .paused _ => 0x03#8 := by
  cases x <;> rfl

theorem Owner.byte_eq (x : Owner) : x.byte = match x with
    | .service => 0xFF#8
    | .board b => BitVec.ofNat 8 b.val := by
  cases x <;> rfl

theorem optionalDomain_eq (x : Option DomainNo) : optionalDomain x = match x with
    | none => 0xFF#8
    | some c => BitVec.ofNat 8 c.val := by
  cases x <;> rfl

theorem nextEdgeBytes_some (e : Entry) :
    nextEdgeBytes (some e) = (if e.kind = .rise then 0x01#8 else 0x02#8) :: Bytes.be 8 e.time := by
  obtain ⟨time, domain, kind⟩ := e
  cases kind <;> rfl

/-- Byte 44: the number of subscribers (R187). -/
theorem Bits.card_eq (x : BoardSet) : Bits.card x = ((List.range 64).filter fun b => Bits.has x b).length :=
  List.countP_eq_length_filter

section Snapshot
variable (s : State) (who : Owner) (d : DomainNo) (r : Domain)

theorem State.snapshot_subscribers :
    (who = .service → (s.snapshot who d r).length = 53 ∧
      (s.snapshot who d r).drop 45 = Bytes.be 8 r.subscribers.toNat) ∧
    ∀ b : BoardNo, who = .board b → (s.snapshot who d r).length = 46 ∧
      (s.snapshot who d r).drop 45 = [if Bits.has r.subscribers b then 0x01#8 else 0x00#8] := by
  refine ⟨fun service => ?_, fun b board => ?_⟩
  · subst service
    exact ⟨(s.length_snapshot ..).trans (by rw [subscriberBytes, Bytes.ofSet, Bytes.length_be]),
      s.snapshot_tail ..⟩
  · subst board
    exact ⟨s.length_snapshot .., s.snapshot_tail ..⟩

theorem State.snapshot_primary {p : Primary} (source : r.source = .primary p) :
    ((s.snapshot who d r).drop 5).take 2 = [0x00#8, p.park.byte] ∧
    ((s.snapshot who d r).drop 7).take 6 = Bytes.be 2 p.period ++ Bytes.be 2 p.high ++ Bytes.be 2 p.phase ∧
    ((s.snapshot who d r).drop 13).take 3 = [0xFF#8, 0x00#8, match p.companion with
      | none => 0xFF#8
      | some c => BitVec.ofNat 8 c.val] := by
  have wave : s.wave r = ⟨p.period, p.high, p.phase⟩ := by rw [State.wave, source]
  refine ⟨State.snapshot_bytes who 3 ?_ rfl rfl, State.snapshot_bytes who 4 ?_ rfl rfl,
    State.snapshot_bytes who 5 ?_ rfl rfl⟩
  · simp only [State.snapshotFields, Domain.park, source]
    rfl
  · simp only [State.snapshotFields, wave]
    rfl
  · rw [← optionalDomain_eq]
    simp only [State.snapshotFields, source]
    rfl

theorem State.snapshot_companion {c : Companion} (source : r.source = .companion c) :
    ((s.snapshot who d r).drop 5).take 2 = [0x01#8, 0x00#8] ∧
    ((s.snapshot who d r).drop 13).take 3 = [BitVec.ofNat 8 c.parent.val, BitVec.ofNat 8 c.gap, 0xFF#8] ∧
    ∀ parent p, s.domain c.parent = some parent → parent.source = .primary p →
      ((s.snapshot who d r).drop 7).take 6 = Bytes.be 2 p.period ++ Bytes.be 2 (p.period - p.high - 2 * c.gap) ++
        Bytes.be 2 ((p.phase + p.high + c.gap) % p.period) := by
  refine ⟨State.snapshot_bytes who 3 ?_ rfl rfl, State.snapshot_bytes who 5 ?_ rfl rfl,
    fun parent p found kind => State.snapshot_bytes who 4 ?_ rfl rfl⟩
  · simp only [State.snapshotFields, Domain.park, source]
    rfl
  · simp only [State.snapshotFields, source]
    rfl
  · have wave : s.wave r = p.derived c.gap := by
      simp only [State.wave, source, State.parentOf_eq found kind]
    simp only [State.snapshotFields, wave]
    rfl

theorem State.snapshot_edge :
    (r.isActive = false ∨ s.nextEdge d = none →
      ((s.snapshot who d r).drop 28).take 9 = List.replicate 9 0x00#8) ∧
    ∀ e, r.isActive = true → s.nextEdge d = some e → ((s.snapshot who d r).drop 28).take 9 =
      (if e.kind = .rise then 0x01#8 else 0x02#8) :: Bytes.be 8 e.time := by
  have field := State.snapshot_bytes (s := s) who (d := d) (r := r) 8 rfl rfl (length_nextEdgeBytes _)
  refine ⟨fun still => ?_, fun e active next => ?_⟩
  · have none : (if r.isActive = true then s.nextEdge d else none) = none := by
      rcases still with idle | absent
      · rw [idle]
        rfl
      · rw [absent, ite_self]
    rw [none] at field
    exact field
  · rw [if_pos active, next, nextEdgeBytes_some] at field
    exact field

end Snapshot

/-! The event sets (R180) -/

theorem Events.flags_eq (resetDone stopped halted haltLine : Bool) :
    let flags : Byte := BitVec.ofNat 8 ((if resetDone then 1 else 0) + (if stopped then 2 else 0) +
      (if halted then 4 else 0) + (if haltLine then 8 else 0))
    flags.toNat < 16 ∧ flags.getLsbD 0 = resetDone ∧ flags.getLsbD 1 = stopped ∧ flags.getLsbD 2 = halted ∧
      flags.getLsbD 3 = haltLine := by
  revert resetDone stopped halted haltLine
  decide

theorem Events.bytes_layout (v : Events) : v.bytes.length = 31 ∧
    (∃ flags : Byte, v.bytes.take 1 = [flags] ∧ flags.toNat < 16 ∧ flags.getLsbD 0 = v.resetDone ∧
      flags.getLsbD 1 = v.stopped ∧ flags.getLsbD 2 = v.halted ∧ flags.getLsbD 3 = v.haltLine) ∧
    v.bytes.drop 1 = Bytes.be 8 v.linked.toNat ++ Bytes.be 8 v.linkDown.toNat ++ Bytes.be 8 v.boardFault.toNat ++
      Bytes.be 6 v.count.toNat :=
  ⟨rfl, ⟨_, rfl, Events.flags_eq ..⟩, rfl⟩

/-! Frames (R62, R137, R162, R182) -/

theorem requestByte_eq : ∀ (tag : Tag) (kind : BitVec 7),
    requestByte tag kind = BitVec.ofNat 8 (128 * tag.val + kind.toNat) := by decide

theorem entryByte_eq (e : DomainNo × Level) :
    entryByte e = BitVec.ofNat 8 (e.1.val + if e.2 = .high then 128 else 0) := by
  obtain ⟨d, level⟩ := e
  cases level <;> rfl

theorem SetPart.bytes_eq (kind : SetKind) (seq16 : BitVec 16) (time index : Nat) (last : Bool)
    (entries : List (DomainNo × Level)) : (Frame.setPart ⟨kind, seq16, time, index, last, entries⟩).bytes =
      linkFrame 0x83#8 ((if kind = .edge then 0x00#8 else 0x01#8) :: (Bytes.be 2 seq16.toNat ++ Bytes.be 6 time ++
        [BitVec.ofNat 8 (index + if last = true then 128 else 0), BitVec.ofNat 8 entries.length] ++
        entries.map fun e => BitVec.ofNat 8 (e.1.val + if e.2 = .high then 128 else 0))) := by
  rw [← List.map_congr_left fun e _ => entryByte_eq e]
  cases kind <;> rfl

theorem Frame.reply_bytes (tag : Tag) (kind : BitVec 7) (status : Status) (data : List Byte) :
    (Frame.reply tag kind status data).bytes =
      linkFrame 0x85#8 (BitVec.ofNat 8 (128 * tag.val + kind.toNat) :: status.byte :: data) := by
  rw [← requestByte_eq]
  rfl

/-- Settles O46: the run record, the snapshot with the event sets, the frames, and the codes. -/
theorem reportsAreLaidOut : Obligations.ReportsAreLaidOut := by
  refine ⟨fun s ready => ?_, fun s who d r => ?_, ?_, ?_⟩
  · intro c data
    have record : data = s.runRecord := by
      simp only [data, c, State.runRecord, Budget.bytes_eq, StopRecord.bytes_eq, Bytes.be_one, List.cons_append,
        List.nil_append, List.append_assoc] <;> rfl
    rw [record]
    exact ⟨exec_readRun ready, s.length_runRecord⟩
  · obtain ⟨service, board⟩ := s.snapshot_subscribers who d r
    obtain ⟨still, next⟩ := s.snapshot_edge who d r
    refine ⟨service, board, ?_, State.snapshot_bytes who 1 rfl rfl rfl, ?_, fun p => s.snapshot_primary who d r,
      fun c => s.snapshot_companion who d r, State.snapshot_bytes who 6 rfl rfl rfl, ?_, still, next, ?_, ?_,
      s.events.bytes_layout⟩
    · exact (State.snapshot_bytes who 0 rfl rfl rfl).trans
        (congrArg (fun x => [DomainNo.byte d, x]) (Life.byte_eq r.life))
    · exact (State.snapshot_bytes who 2 rfl rfl rfl).trans (congrArg (fun x => [x]) (Owner.byte_eq r.owner))
    · exact (State.snapshot_bytes who 7 rfl rfl (length_stopBytes _)).trans (stopBytes_eq r.stop)
    · exact (State.snapshot_bytes who 9 rfl rfl (Life.length_pendingBytes _)).trans (Life.pendingBytes_eq r.life)
    · rw [← Bits.card_eq]
      exact (State.snapshot_bytes who 10 rfl rfl rfl).trans
        (congrArg (fun x => [x, BitVec.ofNat 8 (Bits.card r.subscribers)]) (Life.pauseByte_eq r.life))
  · refine ⟨fun n v => ⟨Bytes.length_be n v, Bytes.toNat_be n v⟩, fun kind payload => ⟨_, _, rfl⟩, fun n => ?_,
      fun b allowance roundTrip => rfl, SetPart.bytes_eq, fun d => ?_, Frame.reply_bytes,
      fun x status lastSeq => ⟨rfl, rfl⟩⟩
    · rw [← Bytes.be_one]
      rfl
    · refine ⟨fun time => ⟨rfl, rfl⟩, fun generation period high phase gap => ?_, rfl, rfl, rfl,
        fun lastSeq => ⟨rfl, rfl⟩, rfl⟩
      rw [← Bytes.be_one]
      rfl
  · decide

end Sys2Proof.Machine
end

section
/-! SUPPORT. The level set, RESYNC, and REWIND's steps (R106 to R110): the statement O47. -/

namespace Sys2Proof.Machine

open Sys2Proof.Safety

/-! The level set and the draining it begins (R106, R134, R138) -/

section LevelSet
variable {v : State} {notices : List (Notice × BoardSet)}

/-- The frames of the notices for one board, while it is LINKED (R62, R63). -/
def State.noticeFrames (s : State) (l : List (Notice × BoardSet)) (b : BoardNo) : List Frame :=
  if (s.board b).link = .linked then (l.filter fun n => Bits.has n.2 b).map fun n => Frame.notice n.1 else []

/-- The board entry that a level set and its notices leave, before the draining. -/
theorem State.board_levelSet (b : BoardNo) :
    (v.issueLevelSet.queueNotices notices).board b = if (v.board b).member = true then { v.board b with
        outstanding := (v.board b).outstanding + 1
        ackTimer :=
          if (v.board b).outstanding = 0 then
            some ⟨v.clock, v.clock + (100 * (v.board b).ackBase + 4 * (v.board b).roundTrip)⟩
          else (v.board b).ackTimer
        txQueue := (v.board b).txQueue ++
          copyFrames .level (v.seq + 1) v.time (v.board b).partSize (v.levelEntries b) ++ v.noticeFrames notices b }
      else { v.board b with txQueue := (v.board b).txQueue ++ v.noticeFrames notices b } := by
  have sent : v.issueLevelSet.board b = if (v.board b).member = true then
      (v.board b).receiveCopy v.clock (copyFrames .level (v.seq + 1) v.time (v.board b).partSize (v.levelEntries b))
      else v.board b := State.board_deliver ..
  have queue : ∀ e : Board, e.link = (v.board b).link →
      (if e.isLinked = true then e.enqueue ((notices.filter fun n => Bits.has n.2 b).map fun n => .notice n.1) else e) =
        { e with txQueue := e.txQueue ++ v.noticeFrames notices b } := fun e link => by
    by_cases linked : (v.board b).link = .linked
    · rw [State.noticeFrames, if_pos linked]
      exact if_pos (decide_eq_true (link.trans linked))
    · rw [State.noticeFrames, if_neg linked, List.append_nil]
      exact if_neg fun same => linked (link.symm.trans (of_decide_eq_true same))
  rw [State.board_queueNotices, sent]
  by_cases member : (v.board b).member = true
  · rw [if_pos member, if_pos member, Board.receiveCopy_eq]
    exact queue _ rfl
  · rw [if_neg member, if_neg member]
    exact queue _ rfl

/-- A level set begins a draining that its copies keep from completing (R98, R106). -/
theorem State.levelSet_drains {some_ : ∃ b, (v.board b).member = true} (cause : StopCause) :
    (v.issueLevelSet.queueNotices notices).enterDraining cause none none none = { v with
      seq := v.seq + 1
      runState := .draining
      stopRecord := ⟨cause, none, none, none, v.time, v.seq + 1⟩
      boards := Vector.ofFn fun b =>
        if (v.board b).member = true then { v.board b with
          outstanding := (v.board b).outstanding + 1
          ackTimer :=
            if (v.board b).outstanding = 0 then
              some ⟨v.clock, v.clock + (100 * (v.board b).ackBase + 4 * (v.board b).roundTrip)⟩
            else (v.board b).ackTimer
          holdTimer := none
          txQueue := (v.board b).txQueue ++
            copyFrames .level (v.seq + 1) v.time (v.board b).partSize (v.levelEntries b) ++ v.noticeFrames notices b }
        else { v.board b with holdTimer := none, txQueue := (v.board b).txQueue ++ v.noticeFrames notices b } } := by
  have form : v.issueLevelSet.queueNotices notices = { v with
      seq := v.seq + 1
      boards := (v.issueLevelSet.queueNotices notices).boards } := by
    conv_lhs => rw [State.queueNotices_eq, State.issueLevelSet, State.deliver_eq]
    rfl
  have entry := State.board_levelSet (v := v) (notices := notices)
  generalize v.issueLevelSet.queueNotices notices = w at form entry
  have waits : ¬ membersClear w := by
    obtain ⟨b, member⟩ := some_
    intro clear
    have board := entry b
    rw [if_pos member] at board
    have none := clear b (by rw [board]; exact member)
    rw [board] at none
    exact Nat.succ_ne_zero _ none
  have off : holdTimersOff w = Vector.ofFn fun b =>
      if (v.board b).member = true then { v.board b with
        outstanding := (v.board b).outstanding + 1
        ackTimer :=
          if (v.board b).outstanding = 0 then
            some ⟨v.clock, v.clock + (100 * (v.board b).ackBase + 4 * (v.board b).roundTrip)⟩
          else (v.board b).ackTimer
        holdTimer := none
        txQueue := (v.board b).txQueue ++
          copyFrames .level (v.seq + 1) v.time (v.board b).partSize (v.levelEntries b) ++ v.noticeFrames notices b }
      else { v.board b with holdTimer := none, txQueue := (v.board b).txQueue ++ v.noticeFrames notices b } := by
    refine boards_ext fun b => ?_
    simp only [holdTimersOff, Fin.getElem_fin, Vector.getElem_ofFn, entry]
    split <;> rfl
  rw [State.enterDraining_waits waits, off, form]

end LevelSet

/-! The resolution of pending changes (R108 step 2) -/

/-- What the resolution makes of one record, its companion field apart. -/
def Domain.resolved (r : Domain) : Option Domain :=
  match r.life with
  | .active (.pause reason) => some { r with life := .paused reason }
  | .active .retire => none
  | .active (.revisePrimary period high) =>
    some { r.revisePrimary period high (r.phase % period) with life := .active .nothing }
  | .active (.reviseCompanion gap) => some { r.reviseCompanion gap with life := .active .nothing }
  | .active .nothing => some r
  | .defined => some r
  | .paused _ => some r

/-- What the resolution of one record tells its subscribers. -/
def Domain.resolution (r : Domain) : Option Resolved :=
  match r.life with
  | .active (.pause reason) => some (.paused reason)
  | .active .retire => some .retired
  | .active (.revisePrimary _ _) => some .revised
  | .active (.reviseCompanion _) => some .revised
  | .active .nothing => none
  | .defined => none
  | .paused _ => none

/-- The companion field taken out, or left. -/
def Domain.cleared (clear : Bool) (r : Domain) : Domain := if clear then r.withCompanion none else r

theorem Domain.withCompanion_life {r : Domain} {c : Option DomainNo} : (r.withCompanion c).life = r.life := by
  unfold Domain.withCompanion
  split <;> rfl

theorem Domain.withCompanion_subscribers {r : Domain} {c : Option DomainNo} :
    (r.withCompanion c).subscribers = r.subscribers := by
  unfold Domain.withCompanion
  split <;> rfl

theorem Domain.withCompanion_companion {r : Domain} {c : Option DomainNo} {x : Companion} :
    (r.withCompanion c).source = .companion x ↔ r.source = .companion x := by
  unfold Domain.withCompanion
  split
  · rename_i source
    simp only [source, reduceCtorEq]
  · exact Iff.rfl

theorem Domain.cleared_life {clear : Bool} {r : Domain} : (r.cleared clear).life = r.life := by
  unfold Domain.cleared
  split
  · exact Domain.withCompanion_life
  · rfl

theorem Domain.cleared_subscribers {clear : Bool} {r : Domain} : (r.cleared clear).subscribers = r.subscribers := by
  unfold Domain.cleared
  split
  · exact Domain.withCompanion_subscribers
  · rfl

theorem Domain.cleared_companion {clear : Bool} {r : Domain} {x : Companion} :
    (r.cleared clear).source = .companion x ↔ r.source = .companion x := by
  unfold Domain.cleared
  split
  · exact Domain.withCompanion_companion
  · rfl

theorem Domain.withCompanion_twice (r : Domain) : (r.withCompanion none).withCompanion none = r.withCompanion none := by
  obtain ⟨label, owner, source, level, generation, count, stop, life, subscribers⟩ := r
  cases source <;> rfl

theorem Domain.cleared_cleared (a b : Bool) (r : Domain) : (r.cleared a).cleared b = r.cleared (a || b) := by
  cases a <;> cases b <;> simp [Domain.cleared, Domain.withCompanion_twice]

theorem Domain.map_cleared_false (x : Option Domain) : x.map (Domain.cleared false) = x := by
  have same : Domain.cleared false = id := rfl
  rw [same, Option.map_id_fun, id]

/-- The companion field does not matter to the resolution. -/
theorem Domain.resolved_cleared (clear : Bool) (r : Domain) :
    (r.cleared clear).resolved = r.resolved.map (Domain.cleared clear) := by
  cases clear with
  | false => exact (Domain.map_cleared_false _).symm
  | true =>
    obtain ⟨label, owner, source, level, generation, count, stop, life, subscribers⟩ := r
    cases source <;> rcases life with _ | (_ | _ | _ | _ | _) | _ <;> rfl

theorem Domain.resolution_cleared (clear : Bool) (r : Domain) : (r.cleared clear).resolution = r.resolution := by
  simp only [Domain.resolution, Domain.cleared_life]

/-- Domain `e` is a companion of `d` whose retirement pends. -/
def State.RetiresFrom (s : State) (e d : DomainNo) : Prop :=
  ∃ x c, s.domain e = some x ∧ x.source = .companion c ∧ c.parent = d ∧ x.life = .active .retire

/-- What the resolution of one record tells, with its subscribers. -/
def State.resolutionOf (s : State) (d : DomainNo) : Option Resolution :=
  (s.domain d).bind fun r => r.resolution.map fun what => ⟨d, what, r.subscribers⟩

section Resolve
variable {acc : State × List Resolution} {d e : DomainNo}

theorem State.resolveOne_none (free : acc.1.domain e = none) : State.resolveOne acc e = acc := by
  rw [State.resolveOne, free]

/-- The resolution of one record that does not retire. -/
theorem State.resolveOne_stays {r : Domain} (h : acc.1.domain e = some r) (life : r.life ≠ .active .retire) :
    (State.resolveOne acc e).1.domain d = if d = e then r.resolved else acc.1.domain d := by
  have put : ∀ q, (acc.1.setDomain e q).domain d = if d = e then q else acc.1.domain d := fun q =>
    State.domain_setDomain ..
  have still : acc.1.domain d = if d = e then some r else acc.1.domain d := by
    split
    · rename_i same
      rw [same, h]
    · rfl
  simp only [State.resolveOne, h, Domain.resolved]
  cases state : r.life with
  | active pending =>
    cases pending with
    | retire => exact absurd state life
    | nothing => exact still
    | _ => exact put _
  | _ => exact still

theorem State.freeDomain_self {s : State} : (s.freeDomain e).domain e = none := by
  unfold State.freeDomain
  split <;> rw [State.domain_setDomain, if_pos rfl]

theorem State.freeDomain_parent {s : State} {r : Domain} (h : s.domain e = some r) (apart : d ≠ e)
    (named : ∃ c, r.source = .companion c ∧ c.parent = d) :
    (s.freeDomain e).domain d = (s.domain d).map (Domain.withCompanion · none) := by
  obtain ⟨c, source, rfl⟩ := named
  obtain ⟨label, owner, _, level, generation, count, stop, life, subscribers⟩ := r
  cases source
  simp only [State.freeDomain, h, State.domain_setDomain, if_neg apart, State.domain_modifyDomain, if_true]

theorem State.freeDomain_apart {s : State} {r : Domain} (h : s.domain e = some r) (apart : d ≠ e)
    (unnamed : ¬ ∃ c, r.source = .companion c ∧ c.parent = d) : (s.freeDomain e).domain d = s.domain d := by
  cases source : r.source with
  | primary p => rw [State.freeDomain_primary h source, State.domain_setDomain, if_neg apart]
  | companion c =>
    have other : d ≠ c.parent := fun same => unnamed ⟨c, source, same.symm⟩
    obtain ⟨label, owner, _, level, generation, count, stop, life, subscribers⟩ := r
    cases source
    simp only [State.freeDomain, h, State.domain_setDomain, if_neg apart, State.domain_modifyDomain, if_neg other]

/-- What the resolution of one record does to every record. -/
theorem State.resolveOne_domain : ∃ clear : Bool, (clear = true ↔ acc.1.RetiresFrom e d) ∧
    (State.resolveOne acc e).1.domain d =
      (if d = e then (acc.1.domain d).bind Domain.resolved else acc.1.domain d).map (Domain.cleared clear) := by
  cases h : acc.1.domain e with
  | none =>
    refine ⟨false, iff_of_false nofun ?_, ?_⟩
    · rintro ⟨x, c, found, _⟩
      rw [h] at found
      exact nomatch found
    · rw [State.resolveOne_none h, Domain.map_cleared_false]
      split
      · rename_i same
        rw [same, h]
        rfl
      · rfl
  | some r =>
    by_cases life : r.life = .active .retire
    · have retires : acc.1.RetiresFrom e d ↔ ∃ c, r.source = .companion c ∧ c.parent = d := by
        constructor
        · rintro ⟨x, c, found, source, parent, _⟩
          cases h.symm.trans found
          exact ⟨c, source, parent⟩
        · rintro ⟨c, source, parent⟩
          exact ⟨r, c, h, source, parent, life⟩
      have taken : (State.resolveOne acc e).1 = acc.1.freeDomain e := by simp only [State.resolveOne, h, life]
      have gone : r.resolved = none := by simp only [Domain.resolved, life]
      rw [taken]
      have self : ∀ clear, d = e → (acc.1.freeDomain e).domain d =
          (if d = e then (acc.1.domain d).bind Domain.resolved else acc.1.domain d).map (Domain.cleared clear) := by
        intro clear same
        rw [if_pos same, same, State.freeDomain_self, h, Option.bind_some, gone]
        rfl
      by_cases named : ∃ c, r.source = .companion c ∧ c.parent = d
      · refine ⟨true, iff_of_true rfl (retires.mpr named), ?_⟩
        by_cases same : d = e
        · exact self true same
        · rw [State.freeDomain_parent h same named, if_neg same]
          rfl
      · refine ⟨false, iff_of_false nofun (mt retires.mp named), ?_⟩
        by_cases same : d = e
        · exact self false same
        · rw [State.freeDomain_apart h same named, if_neg same, Domain.map_cleared_false]
    · refine ⟨false, iff_of_false nofun ?_, ?_⟩
      · rintro ⟨x, c, found, _, _, retire⟩
        cases h.symm.trans found
        exact life retire
      · rw [State.resolveOne_stays h life, Domain.map_cleared_false]
        split
        · rename_i same
          rw [same, h, Option.bind_some]
        · rfl

theorem State.resolveOne_other (apart : d ≠ e) : ∃ clear : Bool, (clear = true ↔ acc.1.RetiresFrom e d) ∧
    (State.resolveOne acc e).1.domain d = (acc.1.domain d).map (Domain.cleared clear) := by
  obtain ⟨clear, named, domain⟩ := State.resolveOne_domain (acc := acc) (d := d) (e := e)
  rw [if_neg apart] at domain
  exact ⟨clear, named, domain⟩

/-- Another record's pending retirement is not resolved before its turn. -/
theorem State.retiresFrom_resolveOne {f : DomainNo} (apart : f ≠ e) :
    (State.resolveOne acc e).1.RetiresFrom f d ↔ acc.1.RetiresFrom f d := by
  obtain ⟨clear, _, domain⟩ := State.resolveOne_other (acc := acc) apart
  simp only [State.RetiresFrom, domain, Option.map_eq_some_iff]
  constructor
  · rintro ⟨_, c, ⟨x, found, rfl⟩, source, parent, life⟩
    exact ⟨x, c, found, Domain.cleared_companion.mp source, parent, Domain.cleared_life.symm.trans life⟩
  · rintro ⟨x, c, found, source, parent, life⟩
    exact ⟨_, c, ⟨x, found, rfl⟩, Domain.cleared_companion.mpr source, parent, Domain.cleared_life.trans life⟩

theorem State.resolutionOf_resolveOne (apart : d ≠ e) :
    (State.resolveOne acc e).1.resolutionOf d = acc.1.resolutionOf d := by
  obtain ⟨clear, _, domain⟩ := State.resolveOne_other (acc := acc) apart
  rw [State.resolutionOf, domain, State.resolutionOf]
  cases acc.1.domain d with
  | none => rfl
  | some r => simp only [Option.map_some, Option.bind_some, Domain.resolution_cleared, Domain.cleared_subscribers]

theorem State.resolveOne_resolutions :
    (State.resolveOne acc e).2 = acc.2 ++ (acc.1.resolutionOf e).toList := by
  cases h : acc.1.domain e with
  | none => simp [State.resolveOne_none h, State.resolutionOf, h]
  | some r =>
    simp only [State.resolveOne, State.resolutionOf, Domain.resolution, h, Option.bind_some]
    rcases life : r.life with _ | (_ | _ | _ | _ | _) | _ <;> simp

/-- The resolution writes records and nothing else of State. -/
theorem State.resolveOne_frame :
    (State.resolveOne acc e).1 = { acc.1 with records := (State.resolveOne acc e).1.records } := by
  unfold State.resolveOne
  split
  · rfl
  · split
    · rfl
    · unfold State.freeDomain
      split <;> rfl
    all_goals rfl

theorem State.resolve_frame {l : List DomainNo} : (l.foldl State.resolveOne acc).1 = { acc.1 with
    records := (l.foldl State.resolveOne acc).1.records } := by
  induction l generalizing acc with
  | nil => rfl
  | cons e l ih =>
    rw [List.foldl_cons]
    refine (ih (acc := State.resolveOne acc e)).trans ?_
    generalize (l.foldl State.resolveOne (State.resolveOne acc e)).1.records = records
    exact congrArg (fun u : State => { u with records := records }) State.resolveOne_frame

/-- The resolution of a list of records, each once. -/
theorem State.resolve_domain {l : List DomainNo} (nodup : l.Nodup) : ∃ clear : Bool,
    (clear = true ↔ ∃ e ∈ l, acc.1.RetiresFrom e d) ∧ (l.foldl State.resolveOne acc).1.domain d =
      (if d ∈ l then (acc.1.domain d).bind Domain.resolved else acc.1.domain d).map (Domain.cleared clear) := by
  induction l generalizing acc with
  | nil => exact ⟨false, by simp, (Domain.map_cleared_false _).symm⟩
  | cons e l ih =>
    obtain ⟨absent, nodup⟩ := List.nodup_cons.mp nodup
    obtain ⟨later, named, domain⟩ := ih (acc := State.resolveOne acc e) nodup
    obtain ⟨first, named', domain'⟩ := State.resolveOne_domain (acc := acc) (d := d) (e := e)
    have others : (∃ f ∈ l, (State.resolveOne acc e).1.RetiresFrom f d) ↔ ∃ f ∈ l, acc.1.RetiresFrom f d :=
      exists_congr fun f => and_congr_right fun mem =>
        State.retiresFrom_resolveOne fun same => absent (same ▸ mem)
    refine ⟨first || later, ?_, ?_⟩
    · rw [Bool.or_eq_true, named', named, others]
      simp only [List.mem_cons, exists_eq_or_imp]
    · rw [List.foldl_cons, domain, domain']
      have both : Domain.cleared later ∘ Domain.cleared first = Domain.cleared (first || later) :=
        funext fun r => Domain.cleared_cleared first later r
      by_cases same : d = e
      · subst same
        rw [if_neg absent, if_pos rfl, if_pos List.mem_cons_self, Option.map_map, both]
      · have mem : d ∈ e :: l ↔ d ∈ l := by simp [same]
        rw [if_neg same]
        simp only [mem]
        split
        · cases acc.1.domain d with
          | none => rfl
          | some r =>
            simp only [Option.map_some, Option.bind_some, Domain.resolved_cleared, Option.map_map, both]
        · rw [Option.map_map, both]

theorem State.resolve_resolutions {l : List DomainNo} (nodup : l.Nodup) :
    (l.foldl State.resolveOne acc).2 = acc.2 ++ l.filterMap acc.1.resolutionOf := by
  induction l generalizing acc with
  | nil => simp
  | cons e l ih =>
    obtain ⟨absent, nodup⟩ := List.nodup_cons.mp nodup
    have others : l.filterMap (State.resolveOne acc e).1.resolutionOf = l.filterMap acc.1.resolutionOf :=
      List.filterMap_congr fun f mem => State.resolutionOf_resolveOne fun same => absent (same ▸ mem)
    rw [List.foldl_cons, ih nodup, State.resolveOne_resolutions, others, List.append_assoc]
    congr 1
    cases h : acc.1.resolutionOf e <;> simp [h]

end Resolve

/-! Levels, counts and the calendar (R14, R72, R108 steps 3 and 4) -/

/-- A record at its park level with count 0. -/
def Domain.reset (r : Domain) : Domain := { r with level := r.park, count := 0 }

theorem Domain.reset_cleared_primary {r : Domain} {p : Primary} {clear : Bool} (source : r.source = .primary p) :
    (r.cleared clear).reset = { r with
      source := .primary { p with companion := if clear then none else p.companion }
      level := p.park
      count := 0 } := by
  obtain ⟨label, owner, _, level, generation, count, stop, life, subscribers⟩ := r
  cases source
  cases clear <;> rfl

theorem Domain.reset_cleared_companion {r : Domain} {c : Companion} {clear : Bool} (source : r.source = .companion c) :
    (r.cleared clear).reset = { r with level := .low, count := 0 } := by
  obtain ⟨label, owner, _, level, generation, count, stop, life, subscribers⟩ := r
  cases source
  cases clear <;> rfl

section Rewound
variable {s : State}

theorem State.domain_rebuildCalendar (u : State) (d : DomainNo) : u.rebuildCalendar.domain d = u.domain d := rfl

/-- REWIND's records. -/
theorem State.rewound_domain (d : DomainNo) : ∃ clear : Bool, (clear = true ↔ ∃ e, s.RetiresFrom e d) ∧
    s.rewindRecords.domain d = ((s.domain d).bind Domain.resolved).map fun r => (r.cleared clear).reset := by
  obtain ⟨clear, named, domain⟩ := State.resolve_domain (acc := ({ s with time := 0 }, [])) (d := d)
    (List.nodup_finRange 48)
  refine ⟨clear, named.trans ⟨fun ⟨e, _, h⟩ => ⟨e, h⟩, fun ⟨e, h⟩ => ⟨e, List.mem_finRange e, h⟩⟩, ?_⟩
  rw [if_pos (List.mem_finRange d)] at domain
  rw [State.rewindRecords, State.domain_rebuildCalendar, State.resetLevels, State.domain_mapDomains, State.resolveAll,
    allDomains, domain, Option.map_map]
  rfl

theorem State.rewound_none {d : DomainNo} (h : s.domain d = none ∨ ∃ r, s.domain d = some r ∧ r.resolved = none) :
    s.rewindRecords.domain d = none := by
  obtain ⟨clear, _, domain⟩ := s.rewound_domain d
  rw [domain]
  rcases h with free | ⟨r, record, gone⟩
  · rw [free]
    rfl
  · rw [record, Option.bind_some, gone]
    rfl

theorem State.rewound_primary {d : DomainNo} {r : Domain} {p : Primary} (h : s.domain d = some r)
    (source : r.source = .primary p) : ∃ companion,
      ((∃ e, s.RetiresFrom e d) → companion = none) ∧ (¬ (∃ e, s.RetiresFrom e d) → companion = p.companion) ∧
      ∀ q p', r.resolved = some q → q.source = .primary p' → p'.companion = p.companion →
        s.rewindRecords.domain d = some { q with
          source := .primary { p' with companion := companion }
          level := p'.park
          count := 0 } := by
  obtain ⟨clear, named, domain⟩ := s.rewound_domain d
  refine ⟨if clear then none else p.companion, fun retires => by rw [named.mpr retires]; rfl, fun none => ?_,
    fun q p' resolved source' same => ?_⟩
  · have stays : clear = false := by
      rw [Bool.eq_false_iff]
      exact fun cleared => none (named.mp cleared)
    rw [stays]
    rfl
  · rw [domain, h, Option.bind_some, resolved, ← same]
    exact congrArg some (Domain.reset_cleared_primary source')

theorem State.rewound_companion {d : DomainNo} {r q : Domain} {c : Companion} (h : s.domain d = some r)
    (resolved : r.resolved = some q) (source : q.source = .companion c) :
    s.rewindRecords.domain d = some { q with level := .low, count := 0 } := by
  obtain ⟨clear, _, domain⟩ := s.rewound_domain d
  rw [domain, h, Option.bind_some, resolved]
  exact congrArg some (Domain.reset_cleared_companion source)

/-- What stands, and what only completes, in the resolution. -/
theorem Domain.resolved_stands {r : Domain}
    (h : r.life = .defined ∨ (∃ reason, r.life = .paused reason) ∨ r.life = .active .nothing) :
    r.resolved = some r := by
  rcases h with life | ⟨reason, life⟩ | life <;> simp only [Domain.resolved, life]

theorem Domain.resolved_pause {r : Domain} {reason : PauseReason} (h : r.life = .active (.pause reason)) :
    r.resolved = some { r with life := .paused reason } := by
  simp only [Domain.resolved, h]

theorem Domain.resolved_retire {r : Domain} (h : r.life = .active .retire) : r.resolved = none := by
  simp only [Domain.resolved, h]

theorem Domain.resolved_revisePrimary {r : Domain} {p : Primary} {period high : Nat} (source : r.source = .primary p)
    (h : r.life = .active (.revisePrimary period high)) : r.resolved = some { r with
      source := .primary { p with period := period, high := high, phase := p.phase % period }
      generation := r.generation + 1
      life := .active .nothing } := by
  simp only [Domain.resolved, h, Domain.revisePrimary, Domain.phase, source]

theorem Domain.resolved_reviseCompanion {r : Domain} {c : Companion} {gap : Nat} (source : r.source = .companion c)
    (h : r.life = .active (.reviseCompanion gap)) : r.resolved = some { r with
      source := .companion { c with gap := gap }
      generation := r.generation + 1
      life := .active .nothing } := by
  simp only [Domain.resolved, h, Domain.reviseCompanion, source]

end Rewound

/-! The rewound calendar (R13, R14, R72) -/

/-- The least instant from `bound` on of a residue. -/
def IsEarliest (bound residue period time : Nat) : Prop :=
  bound ≤ time ∧ time % period = residue % period ∧ ∀ v, bound ≤ v → v % period = residue % period → time ≤ v

theorem firstAtOrAfter_isEarliest (bound residue : Nat) {period : Nat} (h : 0 < period) :
    IsEarliest bound residue period (firstAtOrAfter bound residue period) := firstAtOrAfter_earliest bound residue h

theorem IsEarliest.unique {bound residue period t u : Nat} (h : IsEarliest bound residue period t)
    (k : IsEarliest bound residue period u) : t = u :=
  Nat.le_antisymm (h.2.2 u k.1 k.2.1) (k.2.2 t h.1 h.2.1)

theorem IsEarliest.add {bound residue period t : Nat} (gap : Nat) (h : IsEarliest bound residue period t) :
    IsEarliest (t + gap) (residue + gap) period (t + gap) :=
  ⟨le_refl _, Nat.ModEq.add_right gap h.2.1, fun _ from_ _ => from_⟩

section Calendar
variable {s : State} {d : DomainNo} {r : Domain}

theorem State.rewindEdge_primary {p : Primary} (source : r.source = .primary p) (h : 0 < p.period) :
    (p.park = .low → (s.rewindEdge d r).kind = .rise ∧ IsEarliest 1 p.phase p.period (s.rewindEdge d r).time) ∧
    (p.park = .high → (s.rewindEdge d r).kind = .fall ∧
      IsEarliest 1 (p.phase + p.high) p.period (s.rewindEdge d r).time) := by
  refine ⟨fun park => ?_, fun park => ?_⟩ <;> simp only [State.rewindEdge, source, Primary.firstEdge, park, true_and]
  · exact firstAtOrAfter_isEarliest _ _ h
  · exact firstAtOrAfter_isEarliest _ _ h

theorem State.rewindEdge_companion {c : Companion} {parent : Domain} {p : Primary} (source : r.source = .companion c)
    (found : s.domain c.parent = some parent) (kind : parent.source = .primary p) (h : 0 < p.period) :
    (s.rewindEdge d r).kind = .rise ∧
    (p.park = .low → IsEarliest c.gap (p.phase + p.high + c.gap) p.period (s.rewindEdge d r).time) ∧
    (p.park = .high → ∀ fall, IsEarliest 1 (p.phase + p.high) p.period fall →
      (s.rewindEdge d r).time = fall + c.gap) := by
  have known := State.parentOf_eq found kind
  refine ⟨?_, fun park => ?_, fun park fall earliest => ?_⟩
  · simp only [State.rewindEdge, source, known, Companion.firstEdge]
    split <;> rfl
  · simp only [State.rewindEdge, source, known, Companion.firstEdge, park, Nat.zero_add]
    exact firstAtOrAfter_isEarliest _ _ h
  · simp only [State.rewindEdge, source, known, Companion.firstEdge, Primary.firstEdge, park, Nat.zero_add]
    rw [(firstAtOrAfter_isEarliest 1 (p.phase + p.high) h).unique earliest]
    exact (firstAtOrAfter_isEarliest _ _ h).unique (earliest.add c.gap)

end Calendar

/-! REWIND's notices (R108 step 6) -/

/-- Steps 1 to 4 write the time, the records and the calendar. -/
theorem State.rewindRecords_eq (s : State) : s.rewindRecords = { s with
    time := 0
    records := s.rewindRecords.records
    calendar := s.rewindRecords.calendar } := by
  have frame : ({ s with time := 0 } : State).resolveAll.1 = { s with
      time := 0
      records := ({ s with time := 0 } : State).resolveAll.1.records } := by
    rw [State.resolveAll]
    exact State.resolve_frame (acc := ({ s with time := 0 }, []))
  rw [State.rewindRecords]
  generalize ({ s with time := 0 } : State).resolveAll.1 = u at frame ⊢
  have levels : u.resetLevels = { u with records := u.resetLevels.records } := rfl
  generalize u.resetLevels = v at levels ⊢
  have calendar : v.rebuildCalendar = { v with calendar := v.rebuildCalendar.calendar } := rfl
  generalize v.rebuildCalendar = x at calendar ⊢
  rw [calendar, levels, frame]

/-- The notice of one domain's resolution, `t` being the rewound state. -/
def State.rewindNotice (s t : State) (d : DomainNo) : Option (Notice × BoardSet) :=
  match s.domain d with
  | none => none
  | some r =>
    match r.life, t.domain d with
    | .active (.pause reason), _ => some (Notice.paused d reason, r.subscribers)
    | .active .retire, _ => some (.retired d, r.subscribers)
    | .active (.revisePrimary _ _), some q => some (t.revisedNotice d q, r.subscribers)
    | .active (.reviseCompanion _), some q => some (t.revisedNotice d q, r.subscribers)
    | _, _ => none

theorem State.rewindNotice_eq (s t : State) (d : DomainNo) :
    (s.resolutionOf d).toList.flatMap t.resolutionNotice = (s.rewindNotice t d).toList := by
  cases found : s.domain d with
  | none => simp [State.resolutionOf, State.rewindNotice, found]
  | some r =>
    simp only [State.resolutionOf, State.rewindNotice, found, Option.bind_some, Domain.resolution]
    cases life : r.life with
    | defined => rfl
    | paused reason => rfl
    | active pending =>
      cases rewound : t.domain d <;> cases pending <;> simp [State.resolutionNotice, rewound]

theorem State.rewindNotices_eq (s : State) :
    s.rewindNotices = (List.finRange 48).filterMap (s.rewindNotice s.rewindRecords) := by
  have resolutions : ({ s with time := 0 } : State).resolveAll.2 = (List.finRange 48).filterMap s.resolutionOf :=
    (State.resolve_resolutions (List.nodup_finRange 48)).trans (List.nil_append _)
  rw [State.rewindNotices, resolutions, List.filterMap_eq_flatMap_toList, List.flatMap_assoc,
    List.filterMap_eq_flatMap_toList]
  exact List.flatMap_congr fun d _ => s.rewindNotice_eq s.rewindRecords d

/-! The two commands (R107, R110) -/

theorem levelSetCommand_taken {s t : State} (run : s.runState = .stopped) (present : s.anyMember = true) :
    s.levelSetCommand t = ⟨t, .ok, Bytes.be 4 (s.seq + 1).toNat⟩ := by
  rw [State.levelSetCommand, if_neg (not_not_intro run), if_neg (by simp [present])]

/-- What RESYNC and REWIND leave: the level set and the notices on the links, and the draining. -/
def State.levelSetIssued (v : State) (cause : StopCause) (notices : List (Notice × BoardSet)) : State := { v with
  seq := v.seq + 1
  runState := .draining
  stopRecord := ⟨cause, none, none, none, v.time, v.seq + 1⟩
  boards := Vector.ofFn fun b =>
    if (v.board b).member = true then { v.board b with
      outstanding := (v.board b).outstanding + 1
      ackTimer :=
        if (v.board b).outstanding = 0 then
          some ⟨v.clock, v.clock + (100 * (v.board b).ackBase + 4 * (v.board b).roundTrip)⟩
        else (v.board b).ackTimer
      holdTimer := none
      txQueue := (v.board b).txQueue ++
        copyFrames .level (v.seq + 1) v.time (v.board b).partSize (v.levelEntries b) ++ v.noticeFrames notices b }
    else { v.board b with holdTimer := none, txQueue := (v.board b).txQueue ++ v.noticeFrames notices b } }

theorem State.frameStatus_table (s : State) (records : Vector (Option Domain) 48) (calendar : List Entry) :
    ({ s with records := records, calendar := calendar } : State).frameStatus = s.frameStatus := rfl

theorem State.domain_table (s : State) {t : State} {records : Vector (Option Domain) 48} (calendar : List Entry)
    (same : t.records = records) (d : DomainNo) :
    ({ s with records := records, calendar := calendar } : State).domain d = t.domain d := by
  subst same
  rfl

section Commands
variable {s : State} (ready : s.frameStatus = .ready) (run : s.runState = .stopped)
  (present : ∃ b, (s.board b).member = true)
include ready run present

theorem exec_resync : exec (.resync []) s =
    .next (answered (s.levelSetIssued .resync []) 0x25#8 .ok (Bytes.be 4 (s.seq + 1).toNat) 0) := by
  have member : (s.endFiller 0).anyMember = true := (State.anyMember_iff _).mpr present
  refine exec_answers (body := answerResync) rfl ready rfl ready ?_
  rw [answerResync, levelSetCommand_taken (s := s.endFiller 0) run member]
  have drained : (s.endFiller 0).resync = (s.levelSetIssued .resync []).endFiller 0 :=
    State.levelSet_drains (v := s.endFiller 0) (some_ := present) (notices := []) .resync
  rw [drained]
  rfl

theorem exec_rewind {u : State} (same : u = { s with
      records := (s.endFiller 0).rewindRecords.records
      calendar := (s.endFiller 0).rewindRecords.calendar }) :
    exec (.rewind []) s = .next (answered (({ u with time := 0 } : State).levelSetIssued .rewind
      ((List.finRange 48).filterMap (s.rewindNotice u))) 0x24#8 .ok (Bytes.be 4 (s.seq + 1).toNat) 0) := by
  have member : (s.endFiller 0).anyMember = true := (State.anyMember_iff _).mpr present
  have port : u.frameStatus = .ready := by
    rw [same, State.frameStatus_table, ready]
  refine exec_answers (body := answerRewind) rfl ready rfl port ?_
  rw [answerRewind, levelSetCommand_taken (s := s.endFiller 0) run member]
  have notices := State.rewindNotices_eq (s.endFiller 0)
  have form := State.rewindRecords_eq (s.endFiller 0)
  have drained : (s.endFiller 0).rewind = ((s.endFiller 0).rewindRecords).levelSetIssued .rewind
      (s.endFiller 0).rewindNotices :=
    State.levelSet_drains (some_ := by rw [form]; exact present) .rewind
  rw [drained, notices]
  generalize (s.endFiller 0).rewindRecords = v at form same ⊢
  generalize v.records = records at form same
  generalize v.calendar = calendar at form same
  subst form same
  rfl

end Commands

/-! What REWIND leaves in the table and the calendar -/

section Left
variable {s u : State}

/-- A primary that REWIND does not free. -/
def State.BecomesPrimary (u : State) (d : DomainNo) (r : Domain) (p : Primary) (companion : Option DomainNo) (life : Life)
    (period high phase : Nat) (generation : BitVec 16) : Prop :=
  u.domain d = some { r with
    source := .primary ⟨period, high, phase, p.park, companion⟩
    level := p.park
    count := 0
    generation := generation
    life := life }

theorem State.rewound_primary_cases (same : ∀ d, u.domain d = s.rewindRecords.domain d) {d : DomainNo} {r : Domain}
    {p : Primary} (h : s.domain d = some r) (source : r.source = .primary p) : ∃ companion,
      ((∃ e, s.RetiresFrom e d) → companion = none) ∧ (¬ (∃ e, s.RetiresFrom e d) → companion = p.companion) ∧
      (r.life = .defined ∨ (∃ reason, r.life = .paused reason) ∨ r.life = .active .nothing →
        u.BecomesPrimary d r p companion r.life p.period p.high p.phase r.generation) ∧
      (∀ reason, r.life = .active (.pause reason) →
        u.BecomesPrimary d r p companion (.paused reason) p.period p.high p.phase r.generation) ∧
      (∀ period high, r.life = .active (.revisePrimary period high) →
        u.BecomesPrimary d r p companion (.active .nothing) period high (p.phase % period) (r.generation + 1)) := by
  obtain ⟨companion, retires, stays, becomes⟩ := State.rewound_primary h source
  refine ⟨companion, retires, stays, fun stands => ?_, fun reason life => ?_, fun period high life => ?_⟩
  · exact (same d).trans (becomes r p (Domain.resolved_stands stands) source rfl)
  · exact (same d).trans (becomes _ p (Domain.resolved_pause life) source rfl)
  · exact (same d).trans (becomes _ _ (Domain.resolved_revisePrimary source life) rfl rfl)

/-- A companion that REWIND does not free. -/
def State.BecomesCompanion (u : State) (d : DomainNo) (r : Domain) (c : Companion) (life : Life) (gap : Nat)
    (generation : BitVec 16) : Prop :=
  u.domain d = some { r with
    source := .companion ⟨c.parent, gap⟩
    level := .low
    count := 0
    generation := generation
    life := life }

theorem State.rewound_companion_cases (same : ∀ d, u.domain d = s.rewindRecords.domain d) {d : DomainNo} {r : Domain}
    {c : Companion} (h : s.domain d = some r) (source : r.source = .companion c) :
    (r.life = .defined ∨ (∃ reason, r.life = .paused reason) ∨ r.life = .active .nothing →
      u.BecomesCompanion d r c r.life c.gap r.generation) ∧
    (∀ reason, r.life = .active (.pause reason) → u.BecomesCompanion d r c (.paused reason) c.gap r.generation) ∧
    (∀ gap, r.life = .active (.reviseCompanion gap) →
      u.BecomesCompanion d r c (.active .nothing) gap (r.generation + 1)) := by
  have keeps : ∀ q : Domain, q.source = r.source → ({ q with level := .low, count := 0 } : Domain) =
      { q with source := .companion ⟨c.parent, c.gap⟩, level := .low, count := 0 } := fun q kept => by
    obtain ⟨label, owner, _, level, generation, count, stop, life, subscribers⟩ := q
    cases kept.trans source
    rfl
  refine ⟨fun stands => ?_, fun reason life => ?_, fun gap life => ?_⟩
  · refine (same d).trans ((State.rewound_companion h (Domain.resolved_stands stands) source).trans ?_)
    exact congrArg some (keeps r rfl)
  · refine (same d).trans ((State.rewound_companion h (Domain.resolved_pause life) source).trans ?_)
    exact congrArg some (keeps { r with life := .paused reason } rfl)
  · exact (same d).trans (State.rewound_companion h (Domain.resolved_reviseCompanion source life) rfl)

/-- The entries of the rebuilt calendar. -/
theorem State.mem_rewound (same : ∀ d, u.domain d = s.rewindRecords.domain d)
    (calendar : u.calendar = s.rewindRecords.calendar) {x : Entry} : x ∈ u.calendar ↔
    ∃ r, u.domain x.domain = some r ∧ r.isActive = true ∧ x = u.rewindEdge x.domain r := by
  rw [calendar, State.rewindRecords, State.mem_rebuildCalendar]
  have base : ∀ d, u.domain d = ({ s with time := 0 } : State).resolveAll.1.resetLevels.domain d := fun d => by
    rw [same d, State.rewindRecords, State.domain_rebuildCalendar]
  generalize ({ s with time := 0 } : State).resolveAll.1.resetLevels = v at base ⊢
  have parents : ∀ c, u.parentOf c = v.parentOf c := fun c => by
    rw [State.parentOf, State.parentOf, base]
  have edges : ∀ r, u.rewindEdge x.domain r = v.rewindEdge x.domain r := fun r => by
    rw [State.rewindEdge, State.rewindEdge]
    simp only [parents]
  simp only [base, edges]

/-- Two entries of the rebuilt calendar for one domain are one entry. -/
theorem State.rewound_unique (same : ∀ d, u.domain d = s.rewindRecords.domain d)
    (calendar : u.calendar = s.rewindRecords.calendar) {x y : Entry} (hx : x ∈ u.calendar) (hy : y ∈ u.calendar)
    (one : x.domain = y.domain) : x = y := by
  obtain ⟨r, found, _, form⟩ := (State.mem_rewound same calendar).mp hx
  obtain ⟨q, found', _, form'⟩ := (State.mem_rewound same calendar).mp hy
  rw [← one] at found' form'
  cases found.symm.trans found'
  exact form.trans form'.symm

theorem State.rewound_entries (same : ∀ d, u.domain d = s.rewindRecords.domain d)
    (calendar : u.calendar = s.rewindRecords.calendar) (d : DomainNo) :
    (∃ x ∈ u.calendar, x.domain = d) ↔ ∃ r, u.domain d = some r ∧ r.isActive = true := by
  constructor
  · rintro ⟨x, mem, rfl⟩
    obtain ⟨r, found, active, _⟩ := (State.mem_rewound same calendar).mp mem
    exact ⟨r, found, active⟩
  · rintro ⟨r, found, active⟩
    have own := u.rewindEdge_domain d r
    refine ⟨u.rewindEdge d r, (State.mem_rewound same calendar).mpr ?_, own⟩
    rw [own]
    exact ⟨r, found, active, rfl⟩

theorem State.rewound_edges (same : ∀ d, u.domain d = s.rewindRecords.domain d)
    (calendar : u.calendar = s.rewindRecords.calendar) {x : Entry} (mem : x ∈ u.calendar) {r : Domain}
    (found : u.domain x.domain = some r) :
    (∀ p, r.source = .primary p → 0 < p.period →
      (p.park = .low → x.kind = .rise ∧ IsEarliest 1 p.phase p.period x.time) ∧
      (p.park = .high → x.kind = .fall ∧ IsEarliest 1 (p.phase + p.high) p.period x.time)) ∧
    (∀ c parent p, r.source = .companion c → u.domain c.parent = some parent → parent.source = .primary p →
      0 < p.period → x.kind = .rise ∧
      (p.park = .low → IsEarliest c.gap (p.phase + p.high + c.gap) p.period x.time) ∧
      (p.park = .high → ∀ fall, IsEarliest 1 (p.phase + p.high) p.period fall → x.time = fall + c.gap)) := by
  obtain ⟨q, found', _, form⟩ := (State.mem_rewound same calendar).mp mem
  cases found.symm.trans found'
  rw [form]
  exact ⟨fun p source h => State.rewindEdge_primary source h,
    fun c parent p source record kind h => State.rewindEdge_companion source record kind h⟩

end Left

/-- Settles O47: RESYNC's level set, and REWIND's with the records, the notices and the calendar. -/
theorem levelSetsResyncAndRewind : Obligations.LevelSetsResyncAndRewind := by
  intro s ready run present levels issued
  have rewinds := exec_rewind ready run present rfl
  have table := fun calendar => State.domain_table s (t := (s.endFiller 0).rewindRecords) calendar rfl
  have sorted : (s.endFiller 0).rewindRecords.calendar.Pairwise fun x y => x.before y = true := by
    rw [State.rewindRecords]
    exact State.sorted_rebuildCalendar _
  generalize (s.endFiller 0).rewindRecords.records = records at rewinds table
  generalize entries : (s.endFiller 0).rewindRecords.calendar = calendar at rewinds sorted
  refine ⟨exec_resync ready run present, records, calendar, ?_⟩
  intro u revised notices
  have same : ∀ d, u.domain d = (s.endFiller 0).rewindRecords.domain d := table calendar
  have sorted' : u.calendar.Pairwise fun x y => x.before y = true := sorted
  have rewinds' : exec (.rewind []) s = .next (issued u .rewind 0x24#8 0 notices) := rewinds
  have held : u.calendar = (s.endFiller 0).rewindRecords.calendar := entries.symm
  refine ⟨rewinds', fun d free => (same d).trans (State.rewound_none (s := s.endFiller 0) (.inl free)),
    fun d r record => ?_, sorted', fun x hx y hy one => State.rewound_unique same held hx hy one,
    State.rewound_entries same held, fun x mem r found => State.rewound_edges same held mem found⟩
  exact ⟨fun life => (same d).trans
      (State.rewound_none (s := s.endFiller 0) (.inr ⟨r, record, Domain.resolved_retire life⟩)),
    fun p source => State.rewound_primary_cases (s := s.endFiller 0) same record source,
    fun c source => State.rewound_companion_cases (s := s.endFiller 0) same record source⟩

end Sys2Proof.Machine
end

section
/-! SUPPORT. The frames of a link, read back, and their CRC (R120, R121, R182): the statement O50. -/

namespace Sys2Proof.Machine

open Sys2Proof.Safety

/-! The CRC register (R182) -/

/-- The top bits of the register, most-significant bit first. -/
def topBits (r : BitVec 16) (n : Nat) : List Bool := (List.range n).map r.getMsbD

theorem topBits_succ (r : BitVec 16) (n : Nat) : topBits r (n + 1) = topBits r n ++ [r.getMsbD n] := by
  rw [topBits, List.range_succ, List.map_append]
  rfl

theorem crcBit_same {r : BitVec 16} {b : Bool} (h : r.msb = b) : crcBit r b = r <<< 1 := by
  rw [crcBit, if_neg (by simp [h])]

/-- A bit other than the register's top one puts the generator's last term into it. -/
theorem crcBit_odd {r : BitVec 16} {b : Bool} (h : r.msb ≠ b) : (crcBit r b).getLsbD 0 = true := by
  rw [crcBit, if_pos (by simpa using h), BitVec.getLsbD_xor, BitVec.getLsbD_shiftLeft]
  rfl

theorem msb_shiftLeft_getMsbD (r : BitVec 16) (n : Nat) : (r <<< n).msb = r.getMsbD n := by
  rw [BitVec.msb_eq_getMsbD_zero, BitVec.getMsbD_shiftLeft, Nat.zero_add]

/-- The register's own top bits shift it out. -/
theorem crc_topBits (r : BitVec 16) (n : Nat) : (topBits r n).foldl crcBit r = r <<< n := by
  induction n with
  | zero => exact (BitVec.shiftLeft_zero r).symm
  | succ n ih =>
    rw [topBits_succ, List.foldl_append, ih, List.foldl_cons, List.foldl_nil,
      crcBit_same (msb_shiftLeft_getMsbD r n), BitVec.shiftLeft_add]

/-- Bits that leave the register's low end clear are its own top bits. -/
theorem topBits_of_crc {r : BitVec 16} {bits : List Bool} (size : bits.length ≤ 16)
    (clear : ∀ i < bits.length, (bits.foldl crcBit r).getLsbD i = false) : bits = topBits r bits.length := by
  induction bits using List.reverseRecOn with
  | nil => rfl
  | append_singleton bits b ih =>
    rw [List.length_append, List.length_singleton] at size clear ⊢
    rw [List.foldl_append, List.foldl_cons, List.foldl_nil] at clear
    have top : (bits.foldl crcBit r).msb = b := by
      by_contra other
      have even := clear 0 (Nat.succ_pos _)
      rw [crcBit_odd other] at even
      exact nomatch even
    rw [crcBit_same top] at clear
    have before : bits = topBits r bits.length := ih (by omega) fun i below => by
      have next := clear (i + 1) (by omega)
      rw [BitVec.getLsbD_shiftLeft] at next
      simpa [show i + 1 < 16 by omega] using next
    have shifted : bits.foldl crcBit r = r <<< bits.length := by
      conv_lhs => rw [before]
      exact crc_topBits r bits.length
    rw [shifted, msb_shiftLeft_getMsbD] at top
    rw [topBits_succ, ← before, top]

theorem crc16_eq (l : List Byte) : crc16 l = (Bytes.bits l).foldl crcBit 0xFFFF#16 := by
  rw [crc16, Bytes.bits, List.foldl_flatMap]
  rfl

theorem crc16_append (l m : List Byte) : crc16 (l ++ m) = (Bytes.bits m).foldl crcBit (crc16 l) := by
  rw [crc16_eq, crc16_eq, Bytes.bits, Bytes.bits, Bytes.bits, List.flatMap_append, List.foldl_append]

/-- The CRC field holds the register, most-significant bit first. -/
theorem bits_crcField (body : List Byte) : Bytes.bits (crcField body) = topBits (crc16 body) 16 := by
  have both : ∀ r : BitVec 16, Bytes.bits [r.extractLsb' 8 8, r.extractLsb' 0 8] = topBits r 16 := fun r => by
    simp [Bytes.bits, Bytes.bitsOf, topBits, List.range_succ, BitVec.getMsbD]
  exact both (crc16 body)

theorem crc16_crcField (body : List Byte) : crc16 (body ++ crcField body) = 0#16 := by
  rw [crc16_append, bits_crcField, crc_topBits]
  exact BitVec.shiftLeft_eq_zero (le_refl 16)

theorem Bytes.bits_injective {l m : List Byte} (h : Bytes.bits l = Bytes.bits m) : l = m := by
  have read : ∀ l, Bytes.ofBits (Bytes.bits l) = l := fun l => by
    have whole := Bytes.ofBits_bits l (extra := []) (by decide)
    rwa [List.append_nil] at whole
  rw [← read l, h, read m]

/-- Two bytes that bring the register to zero are the CRC field. -/
theorem crcField_of_crc16 {body : List Byte} {x y : Byte} (h : crc16 (body ++ [x, y]) = 0#16) :
    [x, y] = crcField body := by
  refine Bytes.bits_injective ?_
  rw [crc16_append] at h
  have size : (Bytes.bits [x, y]).length = 16 := Bytes.length_bits [x, y]
  have own := topBits_of_crc (r := crc16 body) (bits := Bytes.bits [x, y]) (le_of_eq size) fun i _ => by
    rw [h, BitVec.getLsbD_zero]
  rw [own, size, bits_crcField]

/-! The frame check (R120) -/

theorem byte_length {n : Nat} (h : n < 256) : (BitVec.ofNat 8 n).toNat = n := by
  rw [BitVec.toNat_ofNat]
  exact Nat.mod_eq_of_lt h

/-- A frame whose CRC is right is read by its kind, its length byte and its payload. -/
theorem decodeLinkFrame_linkFrame (b : BoardNo) (kind : Byte) (payload : List Byte) (arrival : Nat) :
    decodeLinkFrame b (linkFrame kind payload) arrival =
      if formOk kind (BitVec.ofNat 8 payload.length) payload then framePayload b kind payload arrival
      else .badFrame b := by
  have crc : crc16 (linkFrame kind payload) = 0#16 := crc16_crcField _
  have bytes : linkFrame kind payload = kind :: BitVec.ofNat 8 payload.length ::
      (payload ++ crcField (kind :: BitVec.ofNat 8 payload.length :: payload)) := rfl
  unfold decodeLinkFrame
  rw [if_neg (not_not_intro crc), bytes]
  have field : (crcField (kind :: BitVec.ofNat 8 payload.length :: payload)).length = 2 := rfl
  simp only [List.length_append, field, Nat.add_sub_cancel, List.take_left, Nat.le_add_left, decide_true, Bool.and_true]

/-- A payload within the lengths of its kind passes the form check. -/
theorem formOk_of_range {kind : Byte} {payload : List Byte} {least most : Nat}
    (lengths : boardFrameLengths kind = some (least, most)) (h : least ≤ payload.length) (k : payload.length ≤ most)
    (small : most < 256) : formOk kind (BitVec.ofNat 8 payload.length) payload = true := by
  have size := byte_length (Nat.lt_of_le_of_lt k small)
  simp only [formOk, lengths, size, decide_eq_true_eq]
  exact ⟨h, k, trivial⟩

/-- A longer payload never passes it, whatever its length byte says. -/
theorem formOk_of_long {kind len : Byte} {payload : List Byte} {least most : Nat}
    (lengths : boardFrameLengths kind = some (least, most)) (h : most < payload.length) :
    formOk kind len payload = false := by
  simp only [formOk, lengths, decide_eq_false_iff_not]
  omega

theorem requestTag_requestByte : ∀ (tag : Tag) (kind : BitVec 7), requestTag (requestByte tag kind) = tag := by decide

theorem extract_requestByte : ∀ (tag : Tag) (kind : BitVec 7), (requestByte tag kind).extractLsb' 0 7 = kind := by decide

theorem framePayload_request (b : BoardNo) (tag : Tag) (kind : BitVec 7) (params : List Byte) (arrival : Nat) :
    framePayload b 0x05#8 (requestByte tag kind :: params) arrival = .request b tag kind params := by
  cases params with
  | nil =>
    have read : framePayload b 0x05#8 [requestByte tag kind] arrival = .request b (requestTag (requestByte tag kind))
      ((requestByte tag kind).extractLsb' 0 7) [] := rfl
    rw [read, requestTag_requestByte, extract_requestByte]
  | cons y rest =>
    have read : framePayload b 0x05#8 (requestByte tag kind :: y :: rest) arrival =
      .request b (requestTag (requestByte tag kind)) ((requestByte tag kind).extractLsb' 0 7) (y :: rest) := rfl
    rw [read, requestTag_requestByte, extract_requestByte]

/-- A frame of fixed length is read back. -/
theorem decode_fixed {b : BoardNo} {kind : Byte} {payload : List Byte} {arrival : Nat} {c : Instr}
    (lengths : boardFrameLengths kind = some (payload.length, payload.length)) (small : payload.length < 256)
    (read : framePayload b kind payload arrival = c) : decodeLinkFrame b (linkFrame kind payload) arrival = c := by
  rw [decodeLinkFrame_linkFrame, if_pos (formOk_of_range lengths (le_refl _) (le_refl _) small), read]

theorem seq16_bytes (x : BitVec 16) : x.extractLsb' 8 8 ++ x.extractLsb' 0 8 = x := by
  ext i below
  simp only [BitVec.getElem_append, BitVec.getElem_extractLsb']
  split
  · rw [Nat.zero_add, BitVec.getLsbD_eq_getElem]
  · rw [Nat.add_sub_cancel' (by omega), BitVec.getLsbD_eq_getElem]

/-- A REQUEST is read back when its payload is within R182's length, and is malformed when it is not. -/
theorem decode_request (b : BoardNo) (tag : Tag) (kind : BitVec 7) (params : List Byte) :
    (requestLengthOk params = true →
      decodeLinkFrame b (linkFrame 0x05#8 (requestByte tag kind :: params)) 0 = .request b tag kind params) ∧
    (requestLengthOk params = false →
      decodeLinkFrame b (linkFrame 0x05#8 (requestByte tag kind :: params)) 0 = .badFrame b) := by
  refine ⟨fun ok => ?_, fun long => ?_⟩
  · have size : params.length ≤ 17 := of_decide_eq_true ok
    have passes := formOk_of_range (kind := 0x05#8) (payload := requestByte tag kind :: params) (least := 1) (most := 18)
      rfl (Nat.succ_pos _) (Nat.succ_le_succ size) (by decide)
    rw [decodeLinkFrame_linkFrame, if_pos passes]
    exact framePayload_request ..
  · have size : ¬ params.length ≤ 17 := of_decide_eq_false long
    have longer : 18 < (requestByte tag kind :: params).length := by
      rw [List.length_cons]
      omega
    rw [decodeLinkFrame_linkFrame, formOk_of_long (least := 1) (most := 18) rfl longer]
    rfl

/-- Every frame of a board, read back. -/
theorem decode_encodeLinkFrame {c : Instr} {b : BoardNo} {bytes : List Byte} (link : c.link? = some b)
    (frame : encodeLinkFrame c = some bytes) : (c.wf = true → decodeLinkFrame b bytes c.arrival? = c) ∧
      (c.wf = false → decodeLinkFrame b bytes c.arrival? = .badFrame b) := by
  cases c <;> cases link <;> cases frame
  case request.refl.refl tag kind params => exact decode_request b tag kind params
  case ack.refl.refl seq16 => exact ⟨fun _ => decode_fixed rfl (by simp) (congrArg _ (seq16_bytes seq16)), nofun⟩
  all_goals exact ⟨fun _ => decode_fixed rfl (by simp) rfl, nofun⟩

/-- Settles O50: each kind read back, and the CRC both ways. -/
theorem linkFramesReadBackAndCheckToZero : Obligations.LinkFramesReadBackAndCheckToZero := by
  refine ⟨fun c b bytes link frame => decode_encodeLinkFrame link frame,
    fun kind payload x y => ⟨crc16_crcField _, fun zero => ?_⟩⟩
  have field := crcField_of_crc16 (body := kind :: BitVec.ofNat 8 payload.length :: payload) zero
  rw [field]
  rfl

end Sys2Proof.Machine
end

section
/-! SUPPORT. What a move does to the Domain Table, the Edge Calendar and emulation time: most leave all three. -/

namespace Sys2Proof.Machine

open Sys2Proof.Safety

/-- The records, the calendar and emulation time stand. -/
structure State.SameTable (s t : State) : Prop where
  records : t.records = s.records
  calendar : t.calendar = s.calendar
  time : t.time = s.time

theorem State.SameTable.domain {s t : State} (h : s.SameTable t) (d : DomainNo) : t.domain d = s.domain d := by
  rw [State.domain, State.domain, h.records]

theorem State.SameTable.refl (s : State) : s.SameTable s := ⟨rfl, rfl, rfl⟩

theorem State.SameTable.trans {s t u : State} (h : s.SameTable t) (k : t.SameTable u) : s.SameTable u :=
  ⟨k.records.trans h.records, k.calendar.trans h.calendar, k.time.trans h.time⟩

section Same
variable (s : State)

theorem State.sameTable_faultLinked (b : BoardNo) (kind : FaultKind) : s.SameTable (s.faultLinked b kind) :=
  ⟨by simp, by simp, by simp⟩

theorem State.sameTable_dropLinked (b : BoardNo) : s.SameTable (s.dropLinked b) := ⟨by simp, by simp, by simp⟩

theorem State.sameTable_enterDraining (cause : StopCause) (b : Option BoardNo) (d : Option DomainNo)
    (code : Option Byte) : s.SameTable (s.enterDraining cause b d code) := ⟨by simp, by simp, by simp⟩

theorem State.sameTable_enterHalted (cause : StopCause) (b : Option BoardNo) (code : Option Byte) :
    s.SameTable (s.enterHalted cause b code) := ⟨by simp, by simp, by simp⟩

theorem State.sameTable_completeDraining : s.SameTable s.completeDraining := ⟨by simp, by simp, by simp⟩

theorem State.sameTable_emptyStop : s.SameTable s.emptyStop := by
  unfold State.emptyStop
  split
  · exact s.sameTable_enterDraining ..
  · exact .refl s

theorem State.sameTable_budgetStop : s.SameTable s.budgetStop := by
  unfold State.budgetStop
  split
  · rename_i n _
    have spent : s.SameTable { s with budget := .sets (n - 1) } := ⟨rfl, rfl, rfl⟩
    dsimp only
    split
    · exact spent.trans (State.sameTable_enterDraining ..)
    · exact spent
  · exact .refl s
  · exact .refl s

theorem State.sameTable_breakpointStop (l : List DomainNo) : s.SameTable (s.breakpointStop l) := by
  unfold State.breakpointStop
  split
  · exact .refl s
  · exact s.sameTable_enterDraining ..

theorem State.sameTable_startRun (b : Budget) : s.SameTable (s.startRun b) := by
  rw [State.startRun_eq]
  exact State.SameTable.trans (t := s.started b) ⟨rfl, rfl, rfl⟩ (State.sameTable_emptyStop _)

theorem State.sameTable_issueLevelSet : s.SameTable s.issueLevelSet :=
  ⟨by simp [State.issueLevelSet], by simp [State.issueLevelSet], by simp [State.issueLevelSet]⟩

theorem State.sameTable_queueNotices (l : List (Notice × BoardSet)) : s.SameTable (s.queueNotices l) :=
  ⟨by simp, by simp, by simp⟩

end Same

/-- The moves of the Domain Table and of the Edge Calendar. -/
inductive TableMove (s : State) : State → Prop
  | stand : TableMove s s
  | reset (t : State) (records : ∀ d, t.domain d = none) (calendar : t.calendar = []) (time : t.time = 0) : TableMove s t
  | expel (b : BoardNo) : TableMove s (s.mapDomains fun _ r => r.withoutBoard b)
  | rewind : TableMove s s.rewindRecords
  | advance (x : Entry) (rest : List Entry) (head : s.calendar = x :: rest) (range : x.time < 2 ^ 48) :
    TableMove s { (s.processGroup x.time).state with time := x.time }
  | take (k : RecordKind) (who : Owner) (params : List Byte) : TableMove s (k.take who params s).state

/-- A move makes one of the table's moves, and writes nothing else of the table. -/
theorem Move.table {s t : State} (m : Move s t) : ∃ u, TableMove s u ∧ u.SameTable t := by
  have stands : ∀ {v}, s.SameTable v → ∃ u, TableMove s u ∧ u.SameTable v := fun h => ⟨s, .stand, h⟩
  cases m with
  | same t same _ =>
    refine stands ?_
    unfold State.SameCore at same
    rw [same]
    exact ⟨rfl, rfl, rfl⟩
  | passTo instant => exact stands ⟨rfl, rfl, rfl⟩
  | escalation n _ => exact stands ⟨rfl, rfl, rfl⟩
  | cabinet k e _ _ => exact stands ⟨rfl, rfl, rfl⟩
  | mask m _ => exact stands ⟨rfl, rfl, rfl⟩
  | powerOn phase => exact ⟨_, .reset (s.powerOnValues phase) State.domain_reset rfl rfl, .refl _⟩
  | softReset phase => exact ⟨_, .reset (s.softResetValues phase) State.domain_reset rfl rfl, .refl _⟩
  | boards v _ => exact stands ⟨rfl, rfl, rfl⟩
  | fault b kind _ => exact stands (s.sameTable_faultLinked b kind)
  | holdExpired b _ =>
    exact stands (State.SameTable.trans (t := s.modifyBoard b _) ⟨rfl, rfl, rfl⟩ (State.sameTable_faultLinked ..))
  | drop b _ => exact stands (s.sameTable_dropLinked b)
  | ack b _ _ _ =>
    exact stands (State.SameTable.trans (t := s.modifyBoard b _) ⟨rfl, rfl, rfl⟩ (State.sameTable_completeDraining _))
  | drain cause b d code _ => exact stands (s.sameTable_enterDraining ..)
  | halt cause b code => exact stands (s.sameTable_enterHalted ..)
  | startRun budget _ _ _ => exact stands (s.sameTable_startRun budget)
  | resync _ _ => exact stands (s.sameTable_issueLevelSet.trans (State.sameTable_enterDraining ..))
  | rewind _ _ =>
    exact ⟨_, .rewind, (s.rewindRecords.sameTable_issueLevelSet.trans (State.sameTable_queueNotices ..)).trans
      (State.sameTable_enterDraining ..)⟩
  | advance x rest _ head =>
    unfold State.advanceAt
    split
    · exact stands (s.sameTable_enterDraining ..)
    · rename_i small
      split
      · exact stands (s.sameTable_enterDraining ..)
      · have issued : ({ (s.processGroup x.time).state with time := x.time } : State).SameTable
            (State.issueSet (s.processGroup x.time) x.time) := by
          rw [State.issueSet_eq]
          exact ⟨rfl, rfl, rfl⟩
        refine ⟨_, .advance x rest head (by unfold Config.timeLimit at small; omega), ?_⟩
        exact ((issued.trans (State.sameTable_breakpointStop ..)).trans (State.sameTable_budgetStop _)).trans
          (State.sameTable_emptyStop _)
  | clear _ _ => exact stands ⟨rfl, rfl, rfl⟩
  | enroll b _ _ => exact stands ⟨rfl, rfl, rfl⟩
  | expel b _ => exact ⟨_, .expel b, rfl, rfl, rfl⟩
  | take k who params => exact ⟨_, .take k who params, .refl _⟩

/-- What depends on the table alone and every move of it keeps, every step keeps. -/
theorem step_keeps_table {P : State → Prop} (table : ∀ s t, P s → s.SameTable t → P t)
    (move : ∀ s t, P s → TableMove s t → P t) {s t : State} (hs : P s) (h : step s = .next t) : P t := by
  refine step_keeps (fun s t hs same => table s t hs ?_) (fun s t hs m => ?_) hs h
  · unfold State.SameCore at same
    rw [same]
    exact ⟨rfl, rfl, rfl⟩
  · obtain ⟨u, moved, same⟩ := m.table
    exact table u t (move s u hs moved) same

end Sys2Proof.Machine
end

section
/-! SUPPORT. The laws of the Domain Table, operation by operation (R3, R8, R15, R19, R28, R47, R59): the statement O57. -/

namespace Sys2Proof.Safety

open Sys2Proof.Machine

/-! The laws, pair by pair -/

/-- Where a record's source points: a primary to its companion, a companion to its parent. -/
def links : Source → DomainNo ⊕ Option DomainNo
  | .primary p => .inr p.companion
  | .companion c => .inl c.parent

theorem links_companion {x : Source} {c : Companion} {y : Source} (same : y = .companion c) (h : links x = links y) :
    ∃ b, x = .companion b ∧ b.parent = c.parent := by
  subst same
  cases x with
  | primary p => exact nomatch h
  | companion b => exact ⟨b, rfl, Sum.inl.inj h⟩

theorem links_primary {x : Source} {p : Primary} {y : Source} (same : y = .primary p) (h : links x = links y) :
    ∃ q, x = .primary q ∧ q.companion = p.companion := by
  subst same
  cases x with
  | primary q => exact ⟨q, rfl, Sum.inr.inj h⟩
  | companion b => exact nomatch h

/-- What a companion's record and its parent's keep against each other (R8, R47, R59). -/
structure PairOk (x q : Domain) (p : Primary) : Prop where
  gap : gapsFit x p.period p.high
  pending : ∀ period high, q.life = .active (.revisePrimary period high) → gapsFit x period high
  coupled : x.isActive = true → q.isActive = true ∧ q.stopping = false

theorem RecordsOk.pair {s : State} (h : RecordsOk s) {d : DomainNo} {x q : Domain} {c : Companion} {p : Primary}
    (record : s.domain d = some x) (source : x.source = .companion c) (parent : s.domain c.parent = some q)
    (kind : q.source = .primary p) : PairOk x q p :=
  ⟨h.gap d x c q p record source parent kind,
    fun period high life => h.pendingGap d x c q period high record source parent life,
    fun active => h.coupled d x c q record source active parent⟩

/-- The laws from the laws of each record and of each pair. -/
theorem recordsOk_of_pairs {s : State} (valid : ∀ d r, s.domain d = some r → DomainValid r)
    (labels : ∀ d e r q, s.domain d = some r → s.domain e = some q → r.label = q.label → d = e)
    (parent : ∀ d r c, s.domain d = some r → r.source = .companion c →
      ∃ q p, s.domain c.parent = some q ∧ q.source = .primary p ∧ p.companion = some d)
    (child : ∀ d r p c, s.domain d = some r → r.source = .primary p → p.companion = some c →
      ∃ q g, s.domain c = some q ∧ q.source = .companion ⟨d, g⟩)
    (pair : ∀ d x c q p, s.domain d = some x → x.source = .companion c → s.domain c.parent = some q →
      q.source = .primary p → PairOk x q p)
    (kept : ∀ d r, s.domain d = some r → r.companionNo ≠ none → r.life ≠ .active .retire) : RecordsOk s := by
  have paired : ∀ d x c q, s.domain d = some x → x.source = .companion c → s.domain c.parent = some q →
      ∃ p, PairOk x q p := fun d x c q record source found => by
    obtain ⟨q', p, found', kind, _⟩ := parent d x c record source
    cases found.symm.trans found'
    exact ⟨p, pair d x c q p record source found kind⟩
  exact
    { valid := valid, labels := labels, parent := parent, child := child, kept := kept
      gap := fun d x c q p record source found kind => (pair d x c q p record source found kind).gap
      pendingGap := fun d x c q period high record source found life =>
        (paired d x c q record source found).elim fun _ ok => ok.pending period high life
      coupled := fun d x c q record source active found =>
        (paired d x c q record source found).elim fun _ ok => ok.coupled active }

theorem RecordsOk.read {s t : State} (h : RecordsOk s) (read : ∀ d, t.domain d = s.domain d) : RecordsOk t := by
  exact
    { valid := by simpa only [read] using h.valid
      labels := by simpa only [read] using h.labels
      parent := by simpa only [read] using h.parent
      child := by simpa only [read] using h.child
      gap := by simpa only [read] using h.gap
      pendingGap := by simpa only [read] using h.pendingGap
      coupled := by simpa only [read] using h.coupled
      kept := by simpa only [read] using h.kept }

theorem RecordsOk.table {s t : State} (h : RecordsOk s) (same : s.SameTable t) : RecordsOk t := h.read same.domain

/-- A companion's record changed, its gap kept. -/
theorem PairOk.child {x y q : Domain} {p : Primary} (h : PairOk x q p) (gap : y.gap = x.gap)
    (pending : ∀ g, y.life = .active (.reviseCompanion g) → x.life = .active (.reviseCompanion g))
    (active : y.isActive = true → x.isActive = true) : PairOk y q p := by
  have fits : ∀ period high, gapsFit x period high → gapsFit y period high := fun period high fit =>
    ⟨gap ▸ fit.1, fun g life => fit.2 g (pending g life)⟩
  exact ⟨fits _ _ h.gap, fun period high life => fits _ _ (h.pending period high life),
    fun on => h.coupled (active on)⟩

/-- A parent's record changed, its wave kept. -/
theorem PairOk.ofParent {x q y : Domain} {p p' : Primary} (h : PairOk x q p) (period : p'.period = p.period)
    (high : p'.high = p.high)
    (pending : ∀ period high, y.life = .active (.revisePrimary period high) → gapsFit x period high)
    (coupled : x.isActive = true → y.isActive = true ∧ y.stopping = false) : PairOk x y p' :=
  ⟨by rw [period, high]; exact h.gap, pending, coupled⟩

section Set
variable {s : State} {d : DomainNo} {r q : Domain}

/-- One record replaced: its own laws and those of its pair. -/
theorem RecordsOk.set (h : RecordsOk s) (record : s.domain d = some r) (valid : DomainValid q) (label : q.label = r.label)
    (linked : links q.source = links r.source)
    (down : ∀ p c x, q.source = .primary p → p.companion = some c → s.domain c = some x → PairOk x q p)
    (up : ∀ c y p, q.source = .companion c → s.domain c.parent = some y → y.source = .primary p → PairOk q y p)
    (kept : q.companionNo ≠ none → q.life ≠ .active .retire) : RecordsOk (s.setDomain d (some q)) := by
  have here : (s.setDomain d (some q)).domain d = some q := State.domain_written
  have there : ∀ {e}, e ≠ d → (s.setDomain d (some q)).domain e = s.domain e := fun apart => by
    rw [State.domain_setDomain, if_neg apart]
  have cases : ∀ {e x}, (s.setDomain d (some q)).domain e = some x → e = d ∧ x = q ∨ e ≠ d ∧ s.domain e = some x := by
    intro e x found
    by_cases same : e = d
    · subst same
      exact .inl ⟨rfl, (Option.some.inj (here.symm.trans found)).symm⟩
    · exact .inr ⟨same, (there same).symm.trans found⟩
  refine recordsOk_of_pairs (fun e x found => ?_) (fun e f x y found found' same => ?_) (fun e x c found source => ?_)
    (fun e x p c found source companion => ?_) (fun e x c y p found source parent kind => ?_)
    (fun e x found companion => ?_)
  · rcases cases found with ⟨_, rfl⟩ | ⟨_, old⟩
    · exact valid
    · exact h.valid e x old
  · rcases cases found with ⟨rfl, rfl⟩ | ⟨apart, old⟩ <;> rcases cases found' with ⟨rfl, rfl⟩ | ⟨apart', old'⟩
    · rfl
    · exact h.labels _ _ r y record old' (label.symm.trans same)
    · exact h.labels _ _ x r old record (same.trans label)
    · exact h.labels _ _ x y old old' same
  · rcases cases found with ⟨rfl, rfl⟩ | ⟨apart, old⟩
    · obtain ⟨b, source', parent⟩ := links_companion source linked.symm
      obtain ⟨y, p, found', kind, companion⟩ := h.parent e r b record source'
      rw [parent] at found'
      refine ⟨y, p, (there ?_).trans found', kind, companion⟩
      intro own
      rw [own, record] at found'
      cases found'
      rw [source'] at kind
      exact nomatch kind
    · obtain ⟨y, p, found', kind, companion⟩ := h.parent e x c old source
      by_cases own : c.parent = d
      · rw [own] at found' ⊢
        cases record.symm.trans found'
        obtain ⟨p', kind', same⟩ := links_primary kind linked
        exact ⟨q, p', here, kind', same.trans companion⟩
      · exact ⟨y, p, (there own).trans found', kind, companion⟩
  · rcases cases found with ⟨rfl, rfl⟩ | ⟨apart, old⟩
    · obtain ⟨p', source', same⟩ := links_primary source linked.symm
      obtain ⟨y, g, found', kind⟩ := h.child e r p' c record source' (same.trans companion)
      refine ⟨y, g, (there ?_).trans found', kind⟩
      intro own
      rw [own, record] at found'
      cases found'
      rw [source'] at kind
      exact nomatch kind
    · obtain ⟨y, g, found', kind⟩ := h.child e x p c old source companion
      by_cases own : c = d
      · rw [own] at found' ⊢
        cases record.symm.trans found'
        obtain ⟨b, kind', parent⟩ := links_companion kind linked
        exact ⟨q, b.gap, here, kind'.trans (by rw [← show b.parent = e from parent])⟩
      · exact ⟨y, g, (there own).trans found', kind⟩
  · rcases cases found with ⟨rfl, rfl⟩ | ⟨apart, old⟩
    · rcases cases parent with ⟨own, rfl⟩ | ⟨_, found'⟩
      · rw [kind] at source
        exact nomatch source
      · exact up c y p source found' kind
    · rcases cases parent with ⟨own, rfl⟩ | ⟨_, found'⟩
      · obtain ⟨y', p', found', kind', companion⟩ := h.parent e x c old source
        rw [own] at found'
        cases record.symm.trans found'
        obtain ⟨p'', kind'', same⟩ := links_primary kind' linked
        cases kind.symm.trans kind''
        exact down p e x kind (same.trans companion) old
      · exact h.pair old source found' kind
  · rcases cases found with ⟨rfl, rfl⟩ | ⟨apart, old⟩
    · exact kept companion
    · exact h.kept e x old companion

/-- The companion's record of a primary, with its pair. -/
theorem RecordsOk.companionPair (h : RecordsOk s) (record : s.domain d = some r) {p : Primary} {c : DomainNo} {x : Domain}
    (source : r.source = .primary p) (companion : p.companion = some c) (found : s.domain c = some x) :
    (∃ g, x.source = .companion ⟨d, g⟩) ∧ PairOk x r p := by
  obtain ⟨x', g, found', kind⟩ := h.child d r p c record source companion
  cases found.symm.trans found'
  exact ⟨⟨g, kind⟩, h.pair found kind record source⟩

/-- One record changed in what no pair reads. -/
theorem RecordsOk.set_alike (h : RecordsOk s) (record : s.domain d = some r) (valid : DomainValid q)
    (label : q.label = r.label) (source : q.source = r.source) (life : q.life = r.life) :
    RecordsOk (s.setDomain d (some q)) := by
  have active : q.isActive = r.isActive := by simp only [Domain.isActive, life]
  have stopping : q.stopping = r.stopping := by simp only [Domain.stopping, life]
  refine h.set record valid label (by rw [source]) (fun p c x kind companion found => ?_)
    (fun c y p kind found primary => ?_) (fun companion => ?_)
  · rw [source] at kind
    obtain ⟨_, pair⟩ := h.companionPair record kind companion found
    exact pair.ofParent rfl rfl (fun period high => life ▸ pair.pending period high)
      (fun on => by rw [active, stopping]; exact pair.coupled on)
  · rw [source] at kind
    refine (h.pair record kind found primary).child ?_ (fun g => life ▸ id) (fun on => active ▸ on)
    simp only [Domain.gap, source]
  · rw [life]
    refine h.kept d r record ?_
    simpa only [Domain.companionNo, source] using companion

/-- The slot written: with a PAUSE or RETIRE no ACTIVE companion hangs on the record, and no revision is put in. -/
theorem RecordsOk.set_life (h : RecordsOk s) (record : s.domain d = some r) (valid : DomainValid q)
    (label : q.label = r.label) (source : q.source = r.source)
    (primary : ∀ period high, q.life ≠ .active (.revisePrimary period high))
    (companion : ∀ gap, q.life ≠ .active (.reviseCompanion gap))
    (child : ∀ c y, q.isActive = true → r.source = .companion c → s.domain c.parent = some y →
      y.isActive = true ∧ y.stopping = false)
    (parent : ∀ p c x, r.source = .primary p → p.companion = some c → s.domain c = some x → x.isActive = true →
      q.isActive = true ∧ q.stopping = false)
    (kept : r.companionNo ≠ none → q.life ≠ .active .retire) : RecordsOk (s.setDomain d (some q)) := by
  refine h.set record valid label (by rw [source]) (fun p c x kind named found => ?_)
    (fun c y p kind found primary' => ?_) (fun named => kept ?_)
  · rw [source] at kind
    obtain ⟨_, pair⟩ := h.companionPair record kind named found
    exact pair.ofParent rfl rfl (fun period high life => absurd life (primary period high))
      (parent p c x kind named found)
  · rw [source] at kind
    have pair := h.pair record kind found primary'
    have gap : q.gap = r.gap := by simp only [Domain.gap, source]
    exact ⟨⟨gap ▸ pair.gap.1, fun g life => absurd life (companion g)⟩,
      fun period high life => ⟨gap ▸ (pair.pending period high life).1, fun g life => absurd life (companion g)⟩,
      fun on => child c y on kind found⟩
  · simpa only [Domain.companionNo, source] using named

end Set

/-! Records freed and allocated (R26, R28, R56) -/

section Free
variable {s : State} {d : DomainNo} {r : Domain}

/-- What stands after a record is freed: the others, the parent's companion field apart. -/
theorem State.freeDomain_stands (record : s.domain d = some r) {e : DomainNo} {y : Domain}
    (found : (s.freeDomain d).domain e = some y) : e ≠ d ∧ ∃ x, s.domain e = some x ∧
      ((∃ c, r.source = .companion c ∧ c.parent = e) ∧ y = x.withCompanion none ∨
        (¬ ∃ c, r.source = .companion c ∧ c.parent = e) ∧ y = x) := by
  have apart : e ≠ d := by
    rintro rfl
    rw [State.freeDomain_self] at found
    exact nomatch found
  refine ⟨apart, ?_⟩
  by_cases named : ∃ c, r.source = .companion c ∧ c.parent = e
  · rw [State.freeDomain_parent record apart named] at found
    obtain ⟨x, old, form⟩ := Option.map_eq_some_iff.mp found
    exact ⟨x, old, .inl ⟨named, form.symm⟩⟩
  · rw [State.freeDomain_apart record apart named] at found
    exact ⟨y, found, .inr ⟨named, rfl⟩⟩

theorem withCompanion_primary {x : Domain} {p : Primary} (source : x.source = .primary p) (c : Option DomainNo) :
    x.withCompanion c = { x with source := .primary { p with companion := c } } := by
  rw [Domain.withCompanion, source]

theorem DomainValid.withCompanion {x : Domain} (h : DomainValid x) (c : Option DomainNo) :
    DomainValid (x.withCompanion c) := by
  cases source : x.source with
  | companion b =>
    have same : x.withCompanion c = x := by rw [Domain.withCompanion, source]
    exact same.symm ▸ h
  | primary p =>
    rw [withCompanion_primary source]
    have wave := h.source
    rw [source] at wave
    refine ⟨h.label, wave, h.count, h.stop, fun pending life => ?_⟩
    have fits := h.slot pending life
    rw [source] at fits
    cases pending <;> exact fits

/-- What a record that still stands becomes. -/
theorem State.freeDomain_keeps (record : s.domain d = some r) {e : DomainNo} {x : Domain} (apart : e ≠ d)
    (old : s.domain e = some x) : ∃ y, (s.freeDomain d).domain e = some y ∧
      (∀ p, x.source = .primary p → ∃ p', y.source = .primary p' ∧
        ((¬ ∃ c, r.source = .companion c ∧ c.parent = e) → p'.companion = p.companion)) ∧
      ∀ c, x.source = .companion c → y.source = .companion c := by
  by_cases named : ∃ c, r.source = .companion c ∧ c.parent = e
  · refine ⟨x.withCompanion none, (State.freeDomain_parent record apart named).trans (by rw [old]; rfl),
      fun p source => ?_, fun c source => Domain.withCompanion_companion.mpr source⟩
    rw [withCompanion_primary source]
    exact ⟨_, rfl, fun other => absurd named other⟩
  · exact ⟨x, (State.freeDomain_apart record apart named).trans old, fun p source => ⟨p, source, fun _ => rfl⟩,
      fun c source => source⟩

/-- Record `y` is `x`, perhaps without its companion field. -/
structure Unpaired (y x : Domain) : Prop where
  label : y.label = x.label
  life : y.life = x.life
  gap : y.gap = x.gap
  companion : ∀ c, y.source = .companion c → x.source = .companion c
  primary : ∀ p, y.source = .primary p → ∃ p', x.source = .primary p' ∧ p'.period = p.period ∧ p'.high = p.high ∧
    ∀ c, p.companion = some c → p'.companion = some c

theorem Unpaired.refl (x : Domain) : Unpaired x x :=
  ⟨rfl, rfl, rfl, fun _ => id, fun p source => ⟨p, source, rfl, rfl, fun _ => id⟩⟩

theorem Unpaired.withCompanion (x : Domain) : Unpaired (x.withCompanion none) x := by
  cases source : x.source with
  | companion c =>
    have same : x.withCompanion none = x := by rw [Domain.withCompanion, source]
    exact same.symm ▸ .refl x
  | primary p =>
    rw [withCompanion_primary source]
    refine ⟨rfl, rfl, by simp only [Domain.gap, source], nofun, fun p' same => ?_⟩
    cases same
    exact ⟨p, source, rfl, rfl, nofun⟩

theorem Unpaired.pair {x y q q' : Domain} {p p' : Primary} (h : PairOk x q p) (child : Unpaired y x)
    (parent : Unpaired q' q) (period : p.period = p'.period) (high : p.high = p'.high) : PairOk y q' p' := by
  have active : y.isActive = x.isActive := by simp only [Domain.isActive, child.life]
  have on : q'.isActive = q.isActive := by simp only [Domain.isActive, parent.life]
  have stopping : q'.stopping = q.stopping := by simp only [Domain.stopping, parent.life]
  refine (h.child (y := y) child.gap (fun g => child.life ▸ id) (fun k => active ▸ k)).ofParent period.symm high.symm
    ?_ ?_
  · intro period high pending
    have fit := h.pending period high (parent.life ▸ pending)
    exact ⟨child.gap ▸ fit.1, fun g k => fit.2 g (child.life ▸ k)⟩
  · intro k
    rw [on, stopping]
    exact h.coupled (active ▸ k)

theorem State.freeDomain_before (record : s.domain d = some r) {e : DomainNo} {y : Domain}
    (found : (s.freeDomain d).domain e = some y) : e ≠ d ∧ ∃ x, s.domain e = some x ∧ Unpaired y x := by
  obtain ⟨apart, x, old, ⟨_, rfl⟩ | ⟨_, rfl⟩⟩ := State.freeDomain_stands record found
  · exact ⟨apart, x, old, .withCompanion x⟩
  · exact ⟨apart, _, old, .refl _⟩

theorem RecordsOk.freeDomain_valid (h : RecordsOk s) (record : s.domain d = some r) {e : DomainNo} {y : Domain}
    (found : (s.freeDomain d).domain e = some y) : DomainValid y := by
  obtain ⟨_, x, old, ⟨_, rfl⟩ | ⟨_, rfl⟩⟩ := State.freeDomain_stands record found
  · exact (h.valid e x old).withCompanion none
  · exact h.valid e _ old

/-- A record without a companion becomes FREE (R28). -/
theorem RecordsOk.freeDomain (h : RecordsOk s) (record : s.domain d = some r) (alone : r.companionNo = none) :
    RecordsOk (s.freeDomain d) := by
  have before := fun {e y} => State.freeDomain_before record (e := e) (y := y)
  refine recordsOk_of_pairs (fun e y found => ?_) (fun e f x y found found' same => ?_) (fun e y c found source => ?_)
    (fun e y p c found source companion => ?_) (fun e y c q p found source parent kind => ?_)
    (fun e y found companion => ?_)
  · exact h.freeDomain_valid record found
  · obtain ⟨_, x', old, form⟩ := before found
    obtain ⟨_, y', old', form'⟩ := before found'
    exact h.labels e f x' y' old old' (form.label.symm.trans (same.trans form'.label))
  · obtain ⟨apart, x, old, form⟩ := before found
    obtain ⟨q, p, parent, kind, companion⟩ := h.parent e x c old (form.companion c source)
    have other : c.parent ≠ d := by
      rintro own
      rw [own, record] at parent
      cases parent
      simp [Domain.companionNo, kind, companion] at alone
    obtain ⟨q', standing, primary, _⟩ := State.freeDomain_keeps record other parent
    obtain ⟨p', kind', same⟩ := primary p kind
    refine ⟨q', p', standing, kind', (same ?_).trans companion⟩
    rintro ⟨b, source', own⟩
    obtain ⟨q'', p'', parent', kind'', companion'⟩ := h.parent d r b record source'
    rw [own] at parent'
    cases parent.symm.trans parent'
    cases kind.symm.trans kind''
    rw [companion] at companion'
    exact apart (Option.some.inj companion')
  · obtain ⟨apart, x, old, form⟩ := before found
    obtain ⟨p', source', _, _, same⟩ := form.primary p source
    obtain ⟨q, g, child, kind⟩ := h.child e x p' c old source' (same c companion)
    have other : c ≠ d := by
      rintro rfl
      cases record.symm.trans child
      obtain ⟨_, x', old', ⟨_, rfl⟩ | ⟨unnamed, _⟩⟩ := State.freeDomain_stands record found
      · cases old.symm.trans old'
        rw [withCompanion_primary source'] at source
        cases source
        exact nomatch companion
      · exact unnamed ⟨_, kind, rfl⟩
    obtain ⟨q', standing, _, companions⟩ := State.freeDomain_keeps record other child
    exact ⟨q', g, standing, companions _ kind⟩
  · obtain ⟨_, x, old, form⟩ := before found
    obtain ⟨_, x', old', form'⟩ := before parent
    obtain ⟨p', kind', period, high, _⟩ := form'.primary p kind
    exact Unpaired.pair (h.pair old (form.companion c source) old' kind') form form' period high
  · obtain ⟨_, x, old, form⟩ := before found
    rw [form.life]
    refine h.kept e x old ?_
    cases source : y.source with
    | companion c => simp [Domain.companionNo, source] at companion
    | primary p =>
      obtain ⟨p', source', _, _, same⟩ := form.primary p source
      cases named : p.companion with
      | none => simp [Domain.companionNo, source, named] at companion
      | some c => simp [Domain.companionNo, source', same c named]

end Free

/-! Completions and revisions (R11 to R13, R53, R57, R108) -/

section Resolve
variable {s : State} {d : DomainNo} {r : Domain}

theorem DomainValid.withLife {q : Domain} (h : DomainValid r) (label : q.label = r.label) (source : q.source = r.source)
    (count : q.count < 2 ^ 32) (stop : q.stop = r.stop) (slot : ∀ p, q.life = .active p → PendingFits r.source p) :
    DomainValid q where
  label := label ▸ h.label
  source := source ▸ h.source
  count := count
  stop := stop ▸ h.stop
  slot := source ▸ slot

/-- A primary that pauses or retires has no ACTIVE companion (R59). -/
theorem RecordsOk.companion_still (h : RecordsOk s) (record : s.domain d = some r)
    (stops : r.isActive = false ∨ r.stopping = true) {p : Primary} {c : DomainNo} {x : Domain}
    (source : r.source = .primary p) (companion : p.companion = some c) (found : s.domain c = some x) :
    x.isActive = false := by
  obtain ⟨_, pair⟩ := h.companionPair record source companion found
  by_contra on
  obtain ⟨active, goes⟩ := pair.coupled (by simpa using on)
  rcases stops with still | stopping
  · simp [active] at still
  · simp [goes] at stopping

theorem RecordsOk.complete_pause (h : RecordsOk s) (record : s.domain d = some r) {reason : PauseReason}
    (life : r.life = .active (.pause reason)) :
    RecordsOk (s.setDomain d (some { r with life := .paused reason })) := by
  have valid := h.valid d r record
  have stops : r.stopping = true := Domain.stopping_iff.mpr (.inl ⟨reason, life⟩)
  refine h.set_life record (valid.withLife rfl rfl valid.count rfl nofun) rfl rfl nofun nofun (fun _ _ on => nomatch on) ?_
    fun _ => nofun
  intro p c x source companion found on
  have still := h.companion_still record (.inr stops) source companion found
  simp [on] at still

theorem RecordsOk.complete_retire (h : RecordsOk s) (record : s.domain d = some r) (life : r.life = .active .retire) :
    RecordsOk (s.freeDomain d) := by
  refine h.freeDomain record ?_
  by_contra companion
  exact h.kept d r record companion life

/-- The revision of a primary takes effect; what pended fits its companion (R8, R48). -/
theorem RecordsOk.revise_primary (h : RecordsOk s) (record : s.domain d = some r) {p : Primary}
    (source : r.source = .primary p) {period high phase : Nat} (range : waveInRange period high phase) {life : Life}
    (slot : life = r.life ∨ life = .active .nothing) (active : r.isActive = true ↔ ∃ x, life = .active x)
    (fits : ∀ c x, p.companion = some c → s.domain c = some x → gapsFit x period high)
    (unrevised : ∀ period high, life ≠ .active (.revisePrimary period high)) :
    RecordsOk (s.setDomain d (some { r.revisePrimary period high phase with life := life })) := by
  have valid := h.valid d r record
  have form : r.revisePrimary period high phase = { r with
      source := .primary { p with period := period, high := high, phase := phase }
      generation := r.generation + 1 } := by rw [Domain.revisePrimary, source]
  rw [form]
  have kind : ∀ x, life = .active x → PendingFits (.primary { p with period := period, high := high, phase := phase }) x := by
    intro x same
    rcases slot with old | rfl
    · have fit := valid.slot x (old ▸ same)
      rw [source] at fit
      cases x <;> exact fit
    · cases same
      trivial
  refine h.set record ⟨valid.label, range, valid.count, valid.stop, kind⟩ rfl (by rw [source]; rfl) ?_
    (fun _ _ _ same => nomatch same) ?_
  · intro p' c x same companion found
    cases same
    obtain ⟨_, pair⟩ := h.companionPair record source companion found
    refine ⟨fits c x companion found, fun period high pending => absurd pending (unrevised period high), fun on => ?_⟩
    obtain ⟨parent, goes⟩ := pair.coupled on
    obtain ⟨x, state⟩ := active.mp parent
    refine ⟨Domain.active_iff.mpr ⟨x, state⟩, ?_⟩
    rcases slot with old | rfl
    · simpa only [Domain.stopping, old] using goes
    · rfl
  · intro companion
    rcases slot with old | rfl
    · rw [old]
      refine h.kept d r record ?_
      simpa only [Domain.companionNo, source] using companion
    · nofun

/-- The revision of a companion takes effect; what pended fits its parent (R8, R48). -/
theorem RecordsOk.revise_companion (h : RecordsOk s) (record : s.domain d = some r) {c : Companion}
    (source : r.source = .companion c) {gap : Nat} (range : 1 ≤ gap ∧ gap ≤ 255) {life : Life}
    (slot : life = r.life ∨ life = .active .nothing) (active : (∃ x, life = .active x) → r.isActive = true)
    (fits : ∀ q p, s.domain c.parent = some q → q.source = .primary p → gapOk p.period p.high gap = true ∧
      ∀ period high, q.life = .active (.revisePrimary period high) → gapOk period high gap = true)
    (unrevised : ∀ gap, life ≠ .active (.reviseCompanion gap)) :
    RecordsOk (s.setDomain d (some { r.reviseCompanion gap with life := life })) := by
  have valid := h.valid d r record
  have form : r.reviseCompanion gap = { r with
      source := .companion { c with gap := gap }
      generation := r.generation + 1 } := by rw [Domain.reviseCompanion, source]
  rw [form]
  have kind : ∀ x, life = .active x → PendingFits (.companion { c with gap := gap }) x := by
    intro x same
    rcases slot with old | rfl
    · have fit := valid.slot x (old ▸ same)
      rw [source] at fit
      cases x <;> exact fit
    · cases same
      trivial
  refine h.set record ⟨valid.label, range, valid.count, valid.stop, kind⟩ rfl (by rw [source]; rfl)
    (fun _ _ _ same => nomatch same) ?_ ?_
  · intro c' q p same parent primary
    cases same
    obtain ⟨now, later⟩ := fits q p parent primary
    have pair := h.pair record source parent primary
    exact ⟨⟨now, fun g pending => absurd pending (unrevised g)⟩,
      fun period high pending => ⟨later period high pending, fun g own => absurd own (unrevised g)⟩,
      fun on => pair.coupled (active (Domain.active_iff.mp on))⟩
  · intro companion
    exact absurd rfl companion

/-- A primary's pending revision takes effect (R11, R108). -/
theorem RecordsOk.apply_revisePrimary (h : RecordsOk s) (record : s.domain d = some r) {period high phase : Nat}
    (life : r.life = .active (.revisePrimary period high)) (range : phase < period) :
    RecordsOk (s.setDomain d (some { r.revisePrimary period high phase with life := .active .nothing })) := by
  have fit := (h.valid d r record).slot _ life
  cases source : r.source with
  | companion c =>
    rw [source] at fit
    exact fit.elim
  | primary p =>
    rw [source] at fit
    obtain ⟨least, most, one, below⟩ := fit
    refine h.revise_primary record source ⟨least, most, one, below, range⟩ (.inr rfl)
      (iff_of_true (Domain.active_iff.mpr ⟨_, life⟩) ⟨_, rfl⟩) (fun c x companion found => ?_) nofun
    obtain ⟨_, pair⟩ := h.companionPair record source companion found
    exact pair.pending period high life

/-- A companion's pending revision takes effect (R12, R108). -/
theorem RecordsOk.apply_reviseCompanion (h : RecordsOk s) (record : s.domain d = some r) {gap : Nat}
    (life : r.life = .active (.reviseCompanion gap)) :
    RecordsOk (s.setDomain d (some { r.reviseCompanion gap with life := .active .nothing })) := by
  have fit := (h.valid d r record).slot _ life
  cases source : r.source with
  | primary p =>
    rw [source] at fit
    exact fit.elim
  | companion c =>
    rw [source] at fit
    refine h.revise_companion record source fit (.inr rfl) (fun _ => Domain.active_iff.mpr ⟨_, life⟩)
      (fun q p parent primary => ?_) nofun
    have pair := h.pair record source parent primary
    exact ⟨pair.gap.2 gap life, fun period high pending => (pair.pending period high pending).2 gap life⟩

end Resolve

end Sys2Proof.Safety
end

section
/-! SUPPORT. A pair's levels, read off its calendar entries (R8): the statement O60. -/

namespace Sys2Proof.Safety

open Sys2Proof.Machine

/-- An ACTIVE pair: its parent's level and its own, and the times of their entries. -/
theorem pair_timed {s : State} (h : RecordsOk s) (k : CalendarExact s) {d : DomainNo} {r q : Domain} {c : Companion}
    (record : s.domain d = some r) (source : r.source = .companion c) (active : r.isActive = true)
    (parent : s.domain c.parent = some q) :
    ∃ x ∈ s.calendar, ∃ y ∈ s.calendar, ∃ p, x.domain = d ∧ y.domain = c.parent ∧ q.source = .primary p ∧
      pairTimed p c.gap q.level r.level y.time x.time := by
  obtain ⟨on, _⟩ := h.coupled d r c q record source active parent
  obtain ⟨x, listed, rfl⟩ := k.active d r record active
  obtain ⟨y, listed', owner⟩ := k.active c.parent q parent on
  obtain ⟨q', p, found, kind, _⟩ := h.parent x.domain r c record source
  cases parent.symm.trans found
  exact ⟨x, listed, y, listed', p, rfl, owner, kind,
    k.pairs x listed y listed' r q c p record source owner parent kind⟩

/-- Settles O60: an ACTIVE pair's entries time both HIGH as never, and a companion that is not ACTIVE is parked LOW. -/
theorem pairsNeverOverlap : Obligations.PairsNeverOverlap := by
  intro s h k d r c q record source parent ⟨high, high'⟩
  cases active : r.isActive with
  | true =>
    obtain ⟨x, _, y, _, p, _, _, _, timed⟩ := pair_timed h k record source active parent
    rw [high, high'] at timed
    exact timed
  | false =>
    have parked := k.parked d r record active
    rw [high, Domain.park, source] at parked
    exact nomatch parked

end Sys2Proof.Safety
end

section
/-! SUPPORT. What a granted request does to the Domain Table: each request makes one of a few moves, with what its
checks have established (R26, R37, R46 to R58). -/

namespace Sys2Proof.Machine

open Sys2Proof.Safety

/-! The numbers a request carries -/

theorem Bytes.toNat_two_le (a b : Byte) : Bytes.toNat [a, b] ≤ 65535 := by
  have := a.isLt
  have := b.isLt
  simp only [Bytes.toNat, List.foldl]
  omega

theorem Bytes.toNat_four_lt (a b c d : Byte) : Bytes.toNat [a, b, c, d] < 2 ^ 32 := by
  have := a.isLt
  have := b.isLt
  have := c.isLt
  have := d.isLt
  simp only [Bytes.toNat, List.foldl]
  omega

/-- The stop counts a record may hold (R15, R42). -/
def StopInRange (stop : Option StopSetting) : Prop := ∀ x, stop = some x → 1 ≤ x.count ∧ x.count < 2 ^ 32

theorem stopOf_range {action : Byte} {count : Nat} {stop : Option StopSetting} (h : stopOf action count = some stop)
    (range : count < 2 ^ 32) : StopInRange stop := by
  rintro x rfl
  unfold stopOf at h
  split_ifs at h
  all_goals cases h
  all_goals exact ⟨Nat.pos_of_ne_zero (by assumption), range⟩

theorem primaryOf_range {period high phase : Nat} {park : Byte} {src : Source}
    (h : primaryOf period high phase park = some src) (range : period ≤ 65535) :
    ∃ p, src = .primary p ∧ p.companion = none ∧ waveInRange p.period p.high p.phase := by
  unfold primaryOf at h
  split at h
  · exact nomatch h
  · split_ifs at h with wave
    cases h
    obtain ⟨least, one, below, phase⟩ := wave
    exact ⟨_, rfl, rfl, least, range, one, below, phase⟩

theorem companionOf_range {parent gap : Byte} {src : Source} (h : companionOf parent gap = some src) :
    ∃ c, src = .companion c ∧ 1 ≤ c.gap ∧ c.gap ≤ 255 := by
  unfold companionOf at h
  split at h
  · exact nomatch h
  · split_ifs at h with zero
    cases h
    have positive : gap.toNat ≠ 0 := fun none => zero (BitVec.eq_of_toNat_eq none)
    exact ⟨_, rfl, Nat.pos_of_ne_zero positive, Nat.le_of_lt_succ gap.isLt⟩

/-- What CREATE asks for, in its ranges and without a companion (R25, R27 step 1). -/
structure CreateParams.InRange (q : CreateParams) : Prop where
  label : 1 ≤ q.label ∧ q.label ≤ 65535
  source : SourceInRange q.source
  alone : ∀ p, q.source = .primary p → p.companion = none
  stop : StopInRange q.stop

theorem parseCreate_range {params : List Byte} {q : CreateParams} (h : parseCreate params = some q) : q.InRange := by
  unfold parseCreate at h
  split at h
  · split at h
    · exact nomatch h
    · rename_i stopped
      split_ifs at h with label primary companion
      · obtain ⟨src, read, rfl⟩ := Option.map_eq_some_iff.mp h
        obtain ⟨p, rfl, alone, wave⟩ := primaryOf_range read (Bytes.toNat_two_le ..)
        exact ⟨⟨Nat.pos_of_ne_zero label, Bytes.toNat_two_le ..⟩, wave, fun _ same => by cases same; exact alone,
          stopOf_range stopped (Bytes.toNat_four_lt ..)⟩
      · obtain ⟨src, read, rfl⟩ := Option.map_eq_some_iff.mp h
        obtain ⟨c, rfl, range⟩ := companionOf_range read
        exact ⟨⟨Nat.pos_of_ne_zero label, Bytes.toNat_two_le ..⟩, range, nofun,
          stopOf_range stopped (Bytes.toNat_four_lt ..)⟩
      · exact nomatch h
  · exact nomatch h

/-- What REVISE carries, in its ranges (R48). -/
structure ReviseParams.InRange (q : ReviseParams) : Prop where
  period : q.period ≤ 65535
  gap : q.gap ≤ 255
  wave : q.period ≠ 0 → 2 ≤ q.period ∧ q.high < q.period ∧ ∀ f, q.phase = some f → f < q.period

theorem parseRevise_range {params : List Byte} {q : ReviseParams} (h : parseRevise params = some q) : q.InRange := by
  unfold parseRevise at h
  split at h
  · rename_i present f1 f2 gap
    split at h
    · exact nomatch h
    · split at h
      · generalize (if present = 0x01#8 then some (Bytes.toNat [f1, f2]) else none) = phase at h
        dsimp only at h
        split at h
        · rename_i range
          obtain rfl := Option.some.inj h
          refine ⟨Bytes.toNat_two_le .., Nat.le_of_lt_succ gap.isLt, fun carried => ?_⟩
          unfold reviseInRange at range
          exact (of_decide_eq_true range).resolve_left carried
        · exact nomatch h
      · exact nomatch h
  · exact nomatch h

theorem parseSetStop_range {params : List Byte} {d : DomainNo} {stop : Option StopSetting}
    (h : parseSetStop params = some (d, stop)) : StopInRange stop := by
  unfold parseSetStop at h
  split at h
  · split at h
    · rename_i read
      cases h
      exact stopOf_range read (Bytes.toNat_four_lt ..)
    · exact nomatch h
  · exact nomatch h

/-! The moves -/

/-- What R52, R46 and R47 ask of a pending change other than a REVISE. -/
def State.MayHold (s : State) (r : Domain) : Pending → Prop
  | .nothing => True
  | .pause _ => s.companionActive r = false
  | .retire => r.companionNo = none
  | .revisePrimary _ _ => False
  | .reviseCompanion _ => False

/-- What R47 and R48 ask of a REVISE. -/
structure State.MayRevise (s : State) (q : ReviseParams) (r : Domain) : Prop where
  range : q.InRange
  fits : q.fits r = true
  goes : r.stopping = false
  wide : s.reviseGapOk q r = true

/-- What a granted request does to the Domain Table and to the calendar. -/
inductive RecordMove (s : State) : State → Prop
  | stand (t : State) (same : s.SameTable t) : RecordMove s t
  | alike (d : DomainNo) (r q : Domain) (record : s.domain d = some r) (label : q.label = r.label)
    (source : q.source = r.source) (level : q.level = r.level) (count : q.count = r.count) (life : q.life = r.life)
    (stop : q.stop = r.stop ∨ StopInRange q.stop) : RecordMove s (s.setDomain d (some q))
  | activate (d : DomainNo) (r : Domain) (count : Nat) (record : s.domain d = some r) (still : r.isActive = false)
    (ready : s.parentIdle r = false) (counted : count = 0 ∨ count = r.count) :
    RecordMove s (s.activate d { r with count := count } (s.firstEdge d r))
  | pend (d : DomainNo) (r : Domain) (p : Pending) (record : s.domain d = some r) (active : r.isActive = true)
    (may : s.MayHold r p) : RecordMove s (s.setPending d r p)
  | reviseLater (d : DomainNo) (r : Domain) (q : ReviseParams) (record : s.domain d = some r)
    (active : r.isActive = true) (may : s.MayRevise q r) : RecordMove s (s.setPending d r (q.pending r))
  | reviseNow (d : DomainNo) (r : Domain) (q : ReviseParams) (record : s.domain d = some r)
    (still : r.isActive = false) (may : s.MayRevise q r) : RecordMove s (s.setDomain d (some (q.applied r)))
  | free (d : DomainNo) (r : Domain) (record : s.domain d = some r) (still : r.isActive = false)
    (alone : r.companionNo = none) : RecordMove s (s.freeDomain d)
  | create (d : DomainNo) (q : CreateParams) (who : Owner) (free : s.domain d = none) (range : q.InRange)
    (unique : ∀ e r, s.domain e = some r → r.label ≠ q.label) (check : s.sourceCheck q.source = none) :
    RecordMove s (s.allocate d q who)

section Take
variable {s : State} {who : Owner} {d : DomainNo}

theorem RecordMove.refuse (status : Status) : RecordMove s (s.refuse status).state := .stand _ (.refl s)

theorem RecordMove.withRecord {k : Domain → Taken} (h : ∀ r, s.domain d = some r → RecordMove s (k r).state) :
    RecordMove s (s.withRecord d k).state := by
  unfold State.withRecord
  split
  · exact .refuse _
  · exact h _ (by assumption)

theorem RecordMove.withOwned {k : Domain → Taken} (h : ∀ r, s.domain d = some r → RecordMove s (k r).state) :
    RecordMove s (s.withOwned who d k).state := by
  unfold State.withOwned
  split
  · exact .refuse _
  · split
    · exact h _ (by assumption)
    · exact .refuse _

theorem RecordMove.walk (n : Nat) : RecordMove s (s.walk n).state := by
  unfold State.walk
  split
  · exact .stand _ ⟨rfl, rfl, rfl⟩
  · split
    · exact .stand _ ⟨rfl, rfl, rfl⟩
    · exact .refuse _

theorem RecordMove.refuseList (params : List Byte) (n : Nat) : RecordMove s (s.refuseList params n).state := by
  unfold State.refuseList
  split <;> exact .refuse _

theorem State.lowestFree_free (h : s.lowestFree = some d) : s.domain d = none := by
  simpa using List.find?_some h

theorem State.findLabel_unique {label : Nat} (h : ¬ (s.findLabel label).isSome = true) :
    ∀ e r, s.domain e = some r → r.label ≠ label :=
  fun _ _ record same => h (State.findLabel_isSome ⟨_, _, record, same⟩)

theorem RecordMove.takeCreate (params : List Byte) : RecordMove s (takeCreate who params s).state := by
  unfold Machine.takeCreate
  split
  · exact .refuse _
  · rename_i read
    split
    · exact .refuse _
    · rename_i lowest
      split
      · exact .refuse _
      · rename_i unique
        split
        · exact .refuse _
        · rename_i check
          exact .create _ _ who (State.lowestFree_free lowest) (parseCreate_range read) (State.findLabel_unique unique) check

theorem RecordMove.takeRevise (params : List Byte) : RecordMove s (takeRevise who params s).state := by
  unfold Machine.takeRevise
  split
  · exact .refuse _
  · rename_i q read
    refine RecordMove.withOwned fun r record => ?_
    split_ifs with fits goes wide
    · exact .refuse _
    · exact .refuse _
    · exact .refuse _
    · have may : s.MayRevise q r := ⟨parseRevise_range read, by simpa using fits, by simpa using goes, by simpa using wide⟩
      unfold State.applyRevise
      split
      · rename_i active
        exact .reviseLater _ r q record active may
      · rename_i still
        exact .reviseNow _ r q record (by simpa using still) may

theorem RecordMove.takePause (params : List Byte) : RecordMove s (takePause who params s).state := by
  unfold Machine.takePause
  split
  · exact .refuse _
  · refine RecordMove.withOwned fun r record => ?_
    split
    · exact .refuse _
    · exact .refuse _
    · rename_i life
      split
      · exact .refuse _
      · rename_i alone
        split
        · exact .pend _ r (.pause .requested) record (Domain.active_iff.mpr ⟨_, life⟩) (by simpa [State.MayHold] using alone)
        all_goals exact .refuse _

theorem RecordMove.takeRetire (params : List Byte) : RecordMove s (takeRetire who params s).state := by
  unfold Machine.takeRetire
  split
  · exact .refuse _
  · refine RecordMove.withOwned fun r record => ?_
    split
    · exact .refuse _
    · rename_i alone
      have alone : r.companionNo = none := by simpa using alone
      have pends : ∀ p, r.life = .active p → RecordMove s (s.setPending _ r .retire) := fun p life =>
        .pend _ r .retire record (Domain.active_iff.mpr ⟨p, life⟩) alone
      split
      · rename_i life
        exact .free _ r record (Domain.inactive_iff.mpr (.inl life)) alone
      · rename_i life
        exact .free _ r record (Domain.inactive_iff.mpr (.inr ⟨_, life⟩)) alone
      · exact pends _ (by assumption)
      · exact pends _ (by assumption)
      · exact pends _ (by assumption)
      · exact pends _ (by assumption)
      · exact .refuse _

theorem RecordMove.takeCancel (params : List Byte) : RecordMove s (takeCancel who params s).state := by
  unfold Machine.takeCancel
  split
  · exact .refuse _
  · refine RecordMove.withOwned fun r record => ?_
    have pends : ∀ p, r.life = .active p → RecordMove s (s.setPending _ r .nothing) := fun p life =>
      .pend _ r .nothing record (Domain.active_iff.mpr ⟨p, life⟩) trivial
    split
    · exact .refuse _
    · exact .refuse _
    · exact .refuse _
    · exact pends _ (by assumption)
    · exact pends _ (by assumption)
    · exact pends _ (by assumption)
    · exact .refuse _

theorem RecordMove.takeStart (params : List Byte) : RecordMove s (takeStart who params s).state := by
  unfold Machine.takeStart
  split
  · exact .refuse _
  · refine RecordMove.withOwned fun r record => ?_
    split
    · exact .refuse _
    · exact .refuse _
    · rename_i life
      split
      · exact .refuse _
      · rename_i ready
        exact .activate _ r 0 record (Domain.inactive_iff.mpr (.inl life)) (by simpa using ready) (.inl rfl)

theorem RecordMove.takeResume (params : List Byte) : RecordMove s (takeResume who params s).state := by
  unfold Machine.takeResume
  split
  · exact .refuse _
  · refine RecordMove.withOwned fun r record => ?_
    split
    · exact .refuse _
    · exact .refuse _
    · rename_i life
      split
      · exact .refuse _
      · rename_i ready
        exact .activate _ r r.count record (Domain.inactive_iff.mpr (.inr ⟨_, life⟩)) (by simpa using ready) (.inr rfl)

theorem RecordMove.takeSubscription (k : Owner → List Byte → State → Taken)
    (h : k = takeAttach ∨ k = takeDetach) (params : List Byte) : RecordMove s (k who params s).state := by
  have subscribe : ∀ d r x, s.domain d = some r → RecordMove s (s.setDomain d (some { r with subscribers := x })) :=
    fun d r x record => .alike d r _ record rfl rfl rfl rfl rfl (.inl rfl)
  rcases h with rfl | rfl
  · unfold takeAttach
    split
    · exact .refuse _
    · refine RecordMove.withRecord fun r record => ?_
      split
      · exact .refuse _
      · exact subscribe _ r _ record
  · unfold takeDetach
    split
    · exact .refuse _
    · refine RecordMove.withRecord fun r record => ?_
      split
      · exact subscribe _ r _ record
      · exact .refuse _

theorem RecordMove.takeSetStop (params : List Byte) : RecordMove s (takeSetStop who params s).state := by
  unfold Machine.takeSetStop
  split
  · exact .refuse _
  · rename_i read
    exact RecordMove.withOwned fun r record => .alike _ r _ record rfl rfl rfl rfl rfl (.inr (parseSetStop_range read))

theorem RecordMove.takeQuery (k : Owner → List Byte → State → Taken)
    (h : k = takeFind ∨ k = takeLookup ∨ k = takeList ∨ k = takeListFrom) (params : List Byte) :
    RecordMove s (k who params s).state := by
  have stands : RecordMove s s := .stand s (.refl s)
  rcases h with rfl | rfl | rfl | rfl
  · unfold takeFind
    split
    · exact .refuse _
    · split
      · exact .refuse _
      · exact stands
  · unfold takeLookup
    split
    · exact .refuse _
    · exact RecordMove.withRecord fun _ _ => stands
  · unfold takeList
    split
    · exact .walk _
    · exact .refuseList _ _
  · unfold takeListFrom
    split
    · exact .refuseList _ _
    · split
      · exact .refuse _
      · exact .walk _

/-- Every request makes one of the moves. -/
theorem RecordKind.take_moves (who : Owner) (k : RecordKind) (params : List Byte) : RecordMove s (k.take who params s).state := by
  cases k with
  | create => exact .takeCreate params
  | find => exact .takeQuery (who := who) takeFind (.inl rfl) params
  | lookup => exact .takeQuery (who := who) takeLookup (.inr (.inl rfl)) params
  | list => exact .takeQuery (who := who) takeList (.inr (.inr (.inl rfl))) params
  | listFrom => exact .takeQuery (who := who) takeListFrom (.inr (.inr (.inr rfl))) params
  | attach => exact .takeSubscription (who := who) takeAttach (.inl rfl) params
  | detach => exact .takeSubscription (who := who) takeDetach (.inr rfl) params
  | start => exact .takeStart params
  | resume => exact .takeResume params
  | revise => exact .takeRevise params
  | pause => exact .takePause params
  | retire => exact .takeRetire params
  | cancel => exact .takeCancel params
  | setStop => exact .takeSetStop params

end Take

end Sys2Proof.Machine
end

section
/-! SUPPORT. The laws of the Domain Table, move by move: the statement O57. -/

namespace Sys2Proof.Safety

open Sys2Proof.Machine

/-! Records changed all at once (R21, R108) -/

theorem RecordsOk.mapped {s t : State} (h : RecordsOk s) {f : Domain → Domain}
    (read : ∀ d, t.domain d = (s.domain d).map f) (label : ∀ r, (f r).label = r.label)
    (source : ∀ r, (f r).source = r.source) (life : ∀ r, (f r).life = r.life) (stop : ∀ r, (f r).stop = r.stop)
    (count : ∀ r, r.count < 2 ^ 32 → (f r).count < 2 ^ 32) : RecordsOk t := by
  have before : ∀ {d y}, t.domain d = some y → ∃ x, s.domain d = some x ∧ y = f x := fun {d y} found => by
    obtain ⟨x, old, form⟩ := Option.map_eq_some_iff.mp ((read d).symm.trans found)
    exact ⟨x, old, form.symm⟩
  have after : ∀ {d x}, s.domain d = some x → t.domain d = some (f x) := fun {d x} old => by rw [read, old]; rfl
  have active : ∀ r, (f r).isActive = r.isActive := fun r => by simp only [Domain.isActive, life]
  have stopping : ∀ r, (f r).stopping = r.stopping := fun r => by simp only [Domain.stopping, life]
  refine recordsOk_of_pairs (fun d y found => ?_) (fun d e y z found found' same => ?_) (fun d y c found kind => ?_)
    (fun d y p c found kind companion => ?_) (fun d y c z p found kind parent primary => ?_)
    (fun d y found companion => ?_)
  · obtain ⟨x, old, rfl⟩ := before found
    have valid := h.valid d x old
    exact valid.withLife (label x) (source x) (count x valid.count) (stop x) fun p same => valid.slot p (life x ▸ same)
  · obtain ⟨x, old, rfl⟩ := before found
    obtain ⟨x', old', rfl⟩ := before found'
    exact h.labels d e x x' old old' ((label x).symm.trans (same.trans (label x')))
  · obtain ⟨x, old, rfl⟩ := before found
    obtain ⟨q, p, parent, primary, companion⟩ := h.parent d x c old ((source x).symm.trans kind)
    exact ⟨f q, p, after parent, (source q).trans primary, companion⟩
  · obtain ⟨x, old, rfl⟩ := before found
    obtain ⟨q, g, child, kind'⟩ := h.child d x p c old ((source x).symm.trans kind) companion
    exact ⟨f q, g, after child, (source q).trans kind'⟩
  · obtain ⟨x, old, rfl⟩ := before found
    obtain ⟨q, old', rfl⟩ := before parent
    have pair := h.pair old ((source x).symm.trans kind) old' ((source q).symm.trans primary)
    have child : PairOk (f x) q p := pair.child (by simp only [Domain.gap, source]) (fun g same => life x ▸ same)
      (fun on => active x ▸ on)
    exact child.ofParent rfl rfl (fun period high same => child.pending period high (life q ▸ same))
      (fun on => by rw [active, stopping]; exact child.coupled on)
  · obtain ⟨x, old, rfl⟩ := before found
    rw [life]
    exact h.kept d x old (by simpa only [Domain.companionNo, source] using companion)

theorem RecordsOk.expelled {s : State} (h : RecordsOk s) (b : BoardNo) :
    RecordsOk (s.mapDomains fun _ r => r.withoutBoard b) :=
  h.mapped (f := fun r => r.withoutBoard b) (fun d => State.domain_mapDomains s _ d) (fun _ => rfl) (fun _ => rfl)
    (fun _ => rfl) (fun _ => rfl) fun _ => id

/-! REWIND (R108) -/

section Rewind
variable {s : State}

theorem RecordsOk.resolveOne {acc : State × List Resolution} (h : RecordsOk acc.1) (d : DomainNo) :
    RecordsOk (State.resolveOne acc d).1 := by
  cases found : acc.1.domain d with
  | none => rwa [State.resolveOne_none found]
  | some r =>
    simp only [State.resolveOne, found]
    split
    · rename_i life
      exact h.complete_pause found life
    · rename_i life
      exact h.complete_retire found life
    · rename_i period high life
      refine h.apply_revisePrimary found life (Nat.mod_lt _ ?_)
      have fits := (h.valid d r found).slot _ life
      cases source : r.source with
      | companion c =>
        rw [source] at fits
        exact fits.elim
      | primary p =>
        rw [source] at fits
        obtain ⟨least, _⟩ := fits
        omega
    · rename_i life
      exact h.apply_reviseCompanion found life
    all_goals exact h

theorem RecordsOk.resolved {l : List DomainNo} {acc : State × List Resolution} (h : RecordsOk acc.1) :
    RecordsOk (l.foldl State.resolveOne acc).1 := by
  induction l generalizing acc with
  | nil => exact h
  | cons d ds ih => exact ih (h.resolveOne d)

theorem RecordsOk.resetLevels (h : RecordsOk s) : RecordsOk s.resetLevels :=
  h.mapped (f := fun r => { r with level := r.park, count := 0 }) (fun d => State.domain_mapDomains s _ d) (fun _ => rfl)
    (fun _ => rfl) (fun _ => rfl) (fun _ => rfl) fun _ _ => Nat.two_pow_pos 32

theorem RecordsOk.rewound (h : RecordsOk s) : RecordsOk s.rewindRecords := by
  have start : RecordsOk { s with time := 0 } := h.read fun _ => rfl
  have resolved : RecordsOk ({ s with time := 0 } : State).resolveAll.1 := start.resolved
  exact resolved.resetLevels.read (State.domain_rebuildCalendar _)

end Rewind

/-! Edges (R78) -/

section Edges
variable {w : Advance} {d c : DomainNo} {r : Domain} {t : Nat}

/-- What stands without the record and follows from it stands after a step of R78. -/
theorem Advance.withRecord_keeps {P : State → Prop} {k : Domain → Advance} (free : P w.state)
    (record : ∀ r, w.state.domain d = some r → P (k r).state) : P (w.withRecord d k).state := by
  cases found : w.state.domain d with
  | none => rwa [Advance.withRecord_none found]
  | some r =>
    rw [Advance.withRecord_some found]
    exact record r found

theorem RecordsOk.level (h : RecordsOk w.state) (kind : EdgeKind) : RecordsOk (w.level d kind).state := by
  refine Advance.withRecord_keeps h fun r found => ?_
  have valid := h.valid d r found
  exact h.set_alike found ⟨valid.label, valid.source, valid.count, valid.stop, valid.slot⟩ rfl rfl rfl

theorem RecordsOk.ownRevision (h : RecordsOk w.state) : RecordsOk (w.ownRevision d t).state := by
  refine Advance.withRecord_keeps h fun r found => ?_
  split
  · rename_i period high source life
    refine h.apply_revisePrimary found life (Nat.mod_lt _ ?_)
    have fits := (h.valid d r found).slot _ life
    rw [source] at fits
    obtain ⟨least, _⟩ := fits
    omega
  · exact h

theorem RecordsOk.rekeyCompanion (h : RecordsOk w.state) (p : Primary) : RecordsOk (w.rekeyCompanion p c t).state :=
  h.read fun e => Advance.rekeyCompanion_records w p c e t

theorem RecordsOk.settleCompanion (h : RecordsOk w.state) (p : Primary) (due : Bool) :
    RecordsOk (w.settleCompanion p c t due).state := by
  refine Advance.withRecord_keeps h fun x found => ?_
  split
  · rename_i gap life
    have revised : RecordsOk (w.revised c (x.reviseCompanion gap)).state := h.apply_reviseCompanion found life
    exact revised.rekeyCompanion p
  · split
    · exact h.rekeyCompanion p
    · exact h
  · exact h
  · exact h

theorem RecordsOk.revision (h : RecordsOk w.state) : RecordsOk (w.revision d t).state := by
  refine Advance.withRecord_keeps h fun before _ => Advance.withRecord_keeps h.ownRevision fun r _ => ?_
  split
  · exact h.ownRevision
  · split
    · exact h.ownRevision
    · exact h.ownRevision.settleCompanion _ _

theorem RecordsOk.counted (h : RecordsOk w.state) (found : w.state.domain d = some r) :
    RecordsOk (w.state.setDomain d (some r.counted)) := by
  have valid := h.valid d r found
  refine h.set_alike found ⟨valid.label, valid.source, ?_, valid.stop, valid.slot⟩ rfl rfl rfl
  simp only [Domain.counted]
  omega

/-- A PAUSE of reason COUNT is put in with no ACTIVE companion on the record (R61). -/
theorem RecordsOk.countPause (h : RecordsOk w.state) (found : w.state.domain d = some r) (life : r.life = .active .nothing)
    (alone : w.state.companionActive r = false) :
    RecordsOk (w.state.setDomain d (some { r.counted with life := .active (.pause .count) })) := by
  have valid := h.valid d r found
  have active : r.isActive = true := Domain.active_iff.mpr ⟨_, life⟩
  refine h.set_life found ⟨valid.label, valid.source, ?_, valid.stop, ?_⟩ rfl rfl nofun nofun
    (fun c q _ source parent => h.coupled d r c q found source active parent) ?_ fun _ => nofun
  · simp only [Domain.counted]
    omega
  · intro p same
    cases same
    have kind : r.counted.source = r.source := rfl
    cases source : r.source with
    | primary p => rw [kind, source]; trivial
    | companion c => rw [kind, source]; trivial
  · intro p c x source companion child on
    have runs := State.companionActive_iff.mpr ⟨p, c, x, source, companion, child, on⟩
    simp [runs] at alone

theorem RecordsOk.count (h : RecordsOk w.state) : RecordsOk (w.count d).state := by
  cases found : w.state.domain d with
  | none => rwa [Advance.count, Advance.withRecord_none found]
  | some r =>
    have counted := h.counted found
    have raised : ∀ {u : State} {e : Event}, RecordsOk u → RecordsOk (u.raise e) := fun ok =>
      ok.read fun x => State.domain_raise _ _ x
    cases reached : r.reachesStop with
    | none =>
      rw [Advance.count_unreached found reached]
      exact counted
    | some action =>
      cases action with
      | notify =>
        rw [Advance.count_notify found reached]
        exact raised counted
      | stopCabinet =>
        rw [Advance.count_stopCabinet found reached]
        exact raised counted
      | pauseDomain =>
        by_cases free : r.life = .active .nothing ∧ w.state.companionActive r = false
        · obtain ⟨life, alone⟩ := free
          rw [Advance.count_pauses found reached life alone]
          exact raised (h.countPause found life alone)
        · rw [Advance.count_kept found reached (by
            rw [not_and_or] at free
            exact free.imp_right fun on => by simpa using on)]
          exact raised counted

theorem RecordsOk.finish (h : RecordsOk w.state) (kind : EdgeKind) : RecordsOk (w.finish d kind t).state := by
  refine Advance.withRecord_keeps h fun r found => ?_
  have onward : RecordsOk (w.state.insertEntry (w.state.edgeAfter d r kind t)) := h.read fun _ => rfl
  dsimp only
  split
  · split
    · rename_i life
      exact h.complete_pause found life
    · rename_i life
      exact h.complete_retire found life
    all_goals exact onward
  · exact onward

theorem RecordsOk.edge (h : RecordsOk w.state) (x : Entry) : RecordsOk (w.edge t x).state := by
  unfold Advance.edge
  split
  · exact ((h.level _).revision.count).finish _
  · exact (h.level _).finish _

theorem RecordsOk.edges {l : List Entry} (h : RecordsOk w.state) : RecordsOk (l.foldl (Advance.edge t) w).state := by
  induction l generalizing w with
  | nil => exact h
  | cons x xs ih => exact ih (h.edge x)

theorem RecordsOk.processGroup {s : State} (h : RecordsOk s) : RecordsOk (s.processGroup t).state :=
  RecordsOk.edges (h.read fun _ => rfl)

end Edges
end Sys2Proof.Safety
end

section
/-! SUPPORT. The laws of the Domain Table, request by request: the statement O57. -/

namespace Sys2Proof.Machine

open Sys2Proof.Safety

/-! What the checks have established -/

section Checked
variable {s : State} {d : DomainNo} {r : Domain} {q : ReviseParams}

theorem State.parentIdle_active {c : Companion} {q : Domain} (ready : s.parentIdle r = false) (source : r.source = .companion c)
    (parent : s.domain c.parent = some q) : q.isActive = true ∧ q.stopping = false := by
  simpa only [State.parentIdle, source, parent, Bool.or_eq_false_iff, Bool.not_eq_false'] using ready

/-- What REVISE carries for a primary (R48). -/
theorem State.MayRevise.primary {p : Primary} (may : s.MayRevise q r) (source : r.source = .primary p) :
    (2 ≤ q.period ∧ q.period ≤ 65535 ∧ 1 ≤ q.high ∧ q.high < q.period) ∧ (∀ f, q.phase = some f → f < q.period) ∧
      ∀ c x, p.companion = some c → s.domain c = some x → gapsFit x q.period q.high := by
  obtain ⟨_, carried, positive, _⟩ := (ReviseParams.fits_primary source).mp may.fits
  obtain ⟨least, below, phase⟩ := may.range.wave carried
  refine ⟨⟨least, may.range.period, Nat.pos_of_ne_zero positive, below⟩, phase, fun c x companion found => ?_⟩
  obtain ⟨now, later⟩ := (State.reviseGapOk_primary source).mp may.wide c x companion found
  exact ⟨gapOk_iff.mpr now, fun gap pending => gapOk_iff.mpr (later gap pending)⟩

/-- What REVISE carries for a companion (R48). -/
theorem State.MayRevise.companion {c : Companion} (may : s.MayRevise q r) (source : r.source = .companion c) :
    (1 ≤ q.gap ∧ q.gap ≤ 255) ∧ ∀ parent p, s.domain c.parent = some parent → parent.source = .primary p →
      gapOk p.period p.high q.gap = true ∧
        ∀ period high, parent.life = .active (.revisePrimary period high) → gapOk period high q.gap = true := by
  obtain ⟨carried, _⟩ := (ReviseParams.fits_companion source).mp may.fits
  refine ⟨⟨Nat.pos_of_ne_zero carried, may.range.gap⟩, fun parent p record kind => ?_⟩
  obtain ⟨now, later⟩ := (State.reviseGapOk_companion source record kind).mp may.wide
  exact ⟨gapOk_iff.mpr now, fun period high pending => gapOk_iff.mpr (later period high pending)⟩

end Checked

/-! What stands after a CREATE (R26) -/

section Allocate
variable {s : State} {d e : DomainNo} {q : CreateParams} {who : Owner}

theorem State.allocate_self : (s.allocate d q who).domain d = some (q.record who) := by
  unfold State.allocate
  split <;> exact State.domain_written

theorem State.allocate_parent (apart : e ≠ d) (named : ∃ c, q.source = .companion c ∧ c.parent = e) :
    (s.allocate d q who).domain e = (s.domain e).map fun r => r.withCompanion (some d) := by
  obtain ⟨c, source, rfl⟩ := named
  simp only [State.allocate, source, State.domain_setDomain, if_neg apart, State.domain_modifyDomain, if_true]

theorem State.allocate_apart (apart : e ≠ d) (unnamed : ¬ ∃ c, q.source = .companion c ∧ c.parent = e) :
    (s.allocate d q who).domain e = s.domain e := by
  cases source : q.source with
  | primary p => simp only [State.allocate, source, State.domain_setDomain, if_neg apart]
  | companion c =>
    have other : e ≠ c.parent := fun same => unnamed ⟨c, source, same.symm⟩
    simp only [State.allocate, source, State.domain_setDomain, if_neg apart, State.domain_modifyDomain, if_neg other]

/-- What CREATE has established of a companion's parent (R27 steps 4 to 7). -/
structure State.TakesCompanion (s : State) (c : Companion) (parent : Domain) (p : Primary) : Prop where
  record : s.domain c.parent = some parent
  kind : parent.source = .primary p
  alone : p.companion = none
  goes : parent.stopping = false
  fits : gapOk p.period p.high c.gap = true
  pending : ∀ period high, parent.life = .active (.revisePrimary period high) → gapOk period high c.gap = true

theorem State.companionCheck_taken {c : Companion} (check : s.companionCheck c = none) :
    ∃ parent p, s.TakesCompanion c parent p := by
  cases record : s.domain c.parent with
  | none => exact nomatch (State.companionCheck_noSuch record).symm.trans check
  | some parent =>
    cases kind : parent.source with
    | companion x => exact nomatch (State.companionCheck_wrongState record (.inl ⟨x, kind⟩)).symm.trans check
    | primary p =>
      by_cases alone : p.companion = none
      · have stands := check
        rw [State.companionCheck_primary record kind alone] at stands
        split_ifs at stands with stops narrow
        obtain ⟨now, later⟩ := gapFitsParent_iff.mp (by simpa using narrow)
        exact ⟨parent, p, record, kind, alone, by simpa using stops, gapOk_iff.mpr now, fun period high pending =>
          gapOk_iff.mpr (later period high pending)⟩
      · have taken : parent.companionNo ≠ none := by simpa only [Domain.companionNo, kind] using alone
        exact nomatch (State.companionCheck_wrongState record (.inr taken)).symm.trans check

/-- What stands after a record is allocated: the new record, the others, and the parent that now names it. -/
inductive Allocated (s : State) (d : DomainNo) (q : CreateParams) (who : Owner) (e : DomainNo) (y : Domain) : Prop
  | self (own : e = d) (form : y = q.record who)
  | parent (c : Companion) (x : Domain) (p : Primary) (source : q.source = .companion c) (named : c.parent = e)
    (takes : s.TakesCompanion c x p) (form : y = { x with source := .primary { p with companion := some d } })
  | other (apart : e ≠ d) (unnamed : ¬ ∃ c, q.source = .companion c ∧ c.parent = e) (old : s.domain e = some y)

theorem State.allocate_stands (check : s.sourceCheck q.source = none) {y : Domain}
    (found : (s.allocate d q who).domain e = some y) : Allocated s d q who e y := by
  by_cases own : e = d
  · subst own
    exact .self rfl (Option.some.inj (State.allocate_self.symm.trans found)).symm
  · by_cases named : ∃ c, q.source = .companion c ∧ c.parent = e
    · rw [State.allocate_parent own named] at found
      obtain ⟨c, source, rfl⟩ := named
      rw [source] at check
      obtain ⟨parent, p, takes⟩ := State.companionCheck_taken check
      rw [takes.record] at found
      exact .parent c parent p source rfl takes
        ((Option.some.inj found).symm.trans (withCompanion_primary takes.kind _))
    · exact .other own named ((State.allocate_apart own named).symm.trans found)

theorem CreateParams.record_valid (range : q.InRange) : DomainValid (q.record who) :=
  ⟨range.label, range.source, Nat.two_pow_pos 32, range.stop, nofun⟩

/-- A label stays with its record, and a new record's is new (R19, R27 step 3). -/
theorem Allocated.label {y : Domain} (stands : Allocated s d q who e y) :
    e = d ∧ y.label = q.label ∨ ∃ x, s.domain e = some x ∧ y.label = x.label := by
  cases stands with
  | self own form => exact .inl ⟨own, form ▸ rfl⟩
  | parent c x p source named takes form => exact .inr ⟨x, named ▸ takes.record, form ▸ rfl⟩
  | other apart unnamed old => exact .inr ⟨y, old, rfl⟩

end Allocate
end Sys2Proof.Machine

namespace Sys2Proof.Safety

open Sys2Proof.Machine

/-! START and RESUME (R37, R47, R54) -/

section Slot
variable {s : State} {d : DomainNo} {r : Domain}

/-- An ACTIVE companion's parent is ACTIVE (R59). -/
theorem RecordsOk.parent_active (h : RecordsOk s) (record : s.domain d = some r) {p : Primary} {c : DomainNo} {x : Domain}
    (source : r.source = .primary p) (companion : p.companion = some c) (found : s.domain c = some x)
    (on : x.isActive = true) : r.isActive = true ∧ r.stopping = false := by
  obtain ⟨_, pair⟩ := h.companionPair record source companion found
  exact pair.coupled on

theorem RecordsOk.activate (h : RecordsOk s) {count : Nat} {edge : Entry} (record : s.domain d = some r)
    (still : r.isActive = false) (ready : s.parentIdle r = false) (counted : count = 0 ∨ count = r.count) :
    RecordsOk (s.activate d { r with count := count } edge) := by
  have valid := h.valid d r record
  have range : count < 2 ^ 32 := by
    rcases counted with rfl | rfl
    · exact Nat.two_pow_pos 32
    · exact valid.count
  have active : RecordsOk (s.setDomain d (some { r with count := count, life := .active .nothing })) := by
    refine h.set_life record (valid.withLife rfl rfl range rfl ?_) rfl rfl nofun nofun
      (fun _ _ _ source parent => State.parentIdle_active ready source parent) ?_ fun _ => nofun
    · intro p same
      cases same
      cases r.source <;> trivial
    · intro p c x source companion found on
      obtain ⟨active, _⟩ := h.parent_active record source companion found on
      simp [active] at still
  exact active.read fun _ => rfl

/-! The pending-change slot (R46, R47, R52, R56, R58) -/

theorem RecordsOk.pend (h : RecordsOk s) {p : Pending} (record : s.domain d = some r) (active : r.isActive = true)
    (may : s.MayHold r p) : RecordsOk (s.setPending d r p) := by
  have valid := h.valid d r record
  refine h.set_life record (valid.withLife rfl rfl valid.count rfl ?_) rfl rfl ?_ ?_
    (fun c q _ source parent => h.coupled d r c q record source active parent) ?_ ?_
  · intro p' same
    cases same
    cases p with
    | revisePrimary period high => exact may.elim
    | reviseCompanion gap => exact may.elim
    | _ => cases r.source <;> trivial
  · intro period high same
    cases same
    exact may
  · intro gap same
    cases same
    exact may
  · intro p' c x source companion found on
    cases p with
    | nothing => exact ⟨rfl, rfl⟩
    | pause reason =>
      have runs := State.companionActive_iff.mpr ⟨p', c, x, source, companion, found, on⟩
      have alone : s.companionActive r = false := may
      simp [runs] at alone
    | retire =>
      have alone : r.companionNo = none := may
      simp [Domain.companionNo, source, companion] at alone
    | revisePrimary period high => exact may.elim
    | reviseCompanion gap => exact may.elim
  · intro companion same
    cases same
    exact companion may

/-! REVISE (R46 to R50) -/

section Revise
variable {q : ReviseParams}

theorem RecordsOk.reviseLater (h : RecordsOk s) (record : s.domain d = some r) (active : r.isActive = true)
    (may : s.MayRevise q r) : RecordsOk (s.setPending d r (q.pending r)) := by
  have valid := h.valid d r record
  have slotted : ∀ p, q.pending r = p → PendingFits r.source p →
      DomainValid { r with life := .active (q.pending r) } := fun p form fits =>
    valid.withLife rfl rfl valid.count rfl fun p' same => by
      cases same
      exact form ▸ fits
  cases source : r.source with
  | primary p =>
    obtain ⟨range, _, fits⟩ := may.primary source
    have form := ReviseParams.pending_primary (q := q) source
    have holds := slotted _ form (by rw [source]; exact range)
    unfold State.setPending
    rw [form] at holds ⊢
    refine h.set record holds rfl rfl ?_ (fun c y p' same => ?_) fun _ => nofun
    · intro p' c x kind companion found
      cases source.symm.trans kind
      obtain ⟨_, pair⟩ := h.companionPair record source companion found
      refine pair.ofParent rfl rfl (fun period high same => ?_) fun _ => ⟨rfl, rfl⟩
      cases same
      exact fits c x companion found
    · exact nomatch source.symm.trans same
  | companion c =>
    obtain ⟨range, fits⟩ := may.companion source
    have form := ReviseParams.pending_companion (q := q) source
    have holds := slotted _ form (by rw [source]; exact range)
    unfold State.setPending
    rw [form] at holds ⊢
    refine h.set record holds rfl rfl (fun p c x same => ?_) ?_ fun _ => nofun
    · exact nomatch source.symm.trans same
    · intro c' y p' kind parent primary
      cases source.symm.trans kind
      obtain ⟨now, later⟩ := fits y p' parent primary
      have pair := h.pair record source parent primary
      refine ⟨⟨pair.gap.1, fun g same => ?_⟩, fun period high pending => ⟨(pair.pending period high pending).1,
        fun g same => ?_⟩, fun _ => pair.coupled active⟩
      · cases same
        exact now
      · cases same
        exact later period high pending

theorem RecordsOk.reviseNow (h : RecordsOk s) (record : s.domain d = some r) (still : r.isActive = false)
    (may : s.MayRevise q r) : RecordsOk (s.setDomain d (some (q.applied r))) := by
  have idle : ∀ p, r.life ≠ .active p := fun p life => by
    have active := Domain.active_iff.mpr ⟨p, life⟩
    simp [active] at still
  cases source : r.source with
  | primary p =>
    obtain ⟨⟨least, most, one, below⟩, phases, fits⟩ := may.primary source
    have phase : q.phase.getD (r.phase % q.period) < q.period := by
      cases carried : q.phase with
      | none => exact Nat.mod_lt _ (by omega)
      | some f => exact phases f carried
    have form : q.applied r = { r.revisePrimary q.period q.high (q.phase.getD (r.phase % q.period)) with
        life := r.life } := by
      simp only [ReviseParams.applied, Domain.revisePrimary, source]
    rw [form]
    exact h.revise_primary record source ⟨least, most, one, below, phase⟩ (.inl rfl) Domain.active_iff fits
      fun period high => idle _
  | companion c =>
    obtain ⟨range, fits⟩ := may.companion source
    have form : q.applied r = { r.reviseCompanion q.gap with life := r.life } := by
      simp only [ReviseParams.applied, Domain.reviseCompanion, source]
    rw [form]
    exact h.revise_companion record source range (.inl rfl) Domain.active_iff.mpr fits fun gap => idle _

end Revise
end Slot

/-! CREATE (R25 to R27) -/

section Create
variable {s : State} {d e : DomainNo} {q : CreateParams} {who : Owner}

theorem RecordsOk.allocate_valid (h : RecordsOk s) (range : q.InRange) {y : Domain} (stands : Allocated s d q who e y) :
    DomainValid y := by
  cases stands with
  | self own form => exact form ▸ CreateParams.record_valid range
  | parent c x p source named takes form =>
    rw [form, ← withCompanion_primary takes.kind]
    exact (h.valid _ x takes.record).withCompanion _
  | other apart unnamed old => exact h.valid e y old

theorem RecordsOk.allocate_labels (h : RecordsOk s) (unique : ∀ e r, s.domain e = some r → r.label ≠ q.label)
    {f : DomainNo} {y z : Domain} (stands : Allocated s d q who e y) (stands' : Allocated s d q who f z)
    (same : y.label = z.label) : e = f := by
  rcases stands.label with ⟨rfl, label⟩ | ⟨x, old, label⟩ <;> rcases stands'.label with ⟨rfl, label'⟩ | ⟨x', old', label'⟩
  · rfl
  · exact absurd (label'.symm.trans (same.symm.trans label)) (unique f x' old')
  · exact absurd (label.symm.trans (same.trans label')) (unique e x old)
  · exact h.labels e f x x' old old' (label.symm.trans (same.trans label'))

/-- A companion's parent, after the allocation. -/
theorem RecordsOk.allocate_parents (h : RecordsOk s) (free : s.domain d = none) (check : s.sourceCheck q.source = none)
    {y : Domain} {c : Companion} (stands : Allocated s d q who e y) (source : y.source = .companion c) :
    ∃ z p, (s.allocate d q who).domain c.parent = some z ∧ z.source = .primary p ∧ p.companion = some e := by
  cases stands with
  | self own form =>
    subst own form
    have source : q.source = .companion c := source
    rw [source] at check
    obtain ⟨parent, p, takes⟩ := State.companionCheck_taken check
    have apart : c.parent ≠ e := fun same => by
      have record := takes.record
      rw [same, free] at record
      exact nomatch record
    have read := State.allocate_parent (who := who) (s := s) apart ⟨c, source, rfl⟩
    rw [takes.record] at read
    exact ⟨_, _, read, congrArg Domain.source (withCompanion_primary takes.kind _), rfl⟩
  | parent c' x p source' named takes form =>
    subst form
    exact nomatch source
  | other apart unnamed old =>
    obtain ⟨z, p, found, kind, companion⟩ := h.parent e y c old source
    have own : c.parent ≠ d := fun same => by
      rw [same, free] at found
      exact nomatch found
    by_cases named : ∃ c', q.source = .companion c' ∧ c'.parent = c.parent
    · obtain ⟨c', source', same⟩ := named
      rw [source'] at check
      obtain ⟨parent, p', takes⟩ := State.companionCheck_taken check
      have record := takes.record
      rw [same] at record
      cases found.symm.trans record
      cases kind.symm.trans takes.kind
      exact nomatch takes.alone.symm.trans companion
    · exact ⟨z, p, (State.allocate_apart own named).trans found, kind, companion⟩

/-- A primary's companion, after the allocation. -/
theorem RecordsOk.allocate_children (h : RecordsOk s) (free : s.domain d = none) (range : q.InRange) {y : Domain}
    {p : Primary} {c : DomainNo} (stands : Allocated s d q who e y) (source : y.source = .primary p)
    (companion : p.companion = some c) :
    ∃ z g, (s.allocate d q who).domain c = some z ∧ z.source = .companion ⟨e, g⟩ := by
  cases stands with
  | self own form =>
    subst own form
    exact nomatch (range.alone p source).symm.trans companion
  | parent c' x p' source' named takes form =>
    subst form
    cases source
    cases companion
    exact ⟨_, c'.gap, State.allocate_self, source'.trans (by rw [← named])⟩
  | other apart unnamed old =>
    obtain ⟨z, g, found, kind⟩ := h.child e y p c old source companion
    have own : c ≠ d := fun same => by
      rw [same, free] at found
      exact nomatch found
    by_cases named : ∃ c', q.source = .companion c' ∧ c'.parent = c
    · refine ⟨z.withCompanion (some d), g, ?_, Domain.withCompanion_companion.mpr kind⟩
      rw [State.allocate_parent own named, found]
      rfl
    · exact ⟨z, g, (State.allocate_apart own named).trans found, kind⟩

/-- What a pair keeps, after the allocation. -/
theorem RecordsOk.allocate_pairs (h : RecordsOk s) (free : s.domain d = none) {x y : Domain} {c : Companion} {p : Primary}
    (child : Allocated s d q who e x) (source : x.source = .companion c) (parent : Allocated s d q who c.parent y)
    (kind : y.source = .primary p) : PairOk x y p := by
  cases child with
  | self own form =>
    subst own form
    have source : q.source = .companion c := source
    have gap : (q.record who).gap = c.gap := Domain.gap_companion source
    have fresh : ∀ {period high}, gapOk period high c.gap = true → gapsFit (q.record who) period high := fun fits =>
      ⟨gap.symm ▸ fits, nofun⟩
    cases parent with
    | self own form =>
      subst form
      exact nomatch source.symm.trans kind
    | parent c' z p' source' named takes form =>
      cases source.symm.trans source'
      subst form
      cases kind
      exact ⟨fresh takes.fits, fun period high pending => fresh (takes.pending period high pending), nofun⟩
    | other apart unnamed old => exact absurd ⟨c, source, rfl⟩ unnamed
  | parent c' z p' source' named takes form =>
    subst form
    exact nomatch source
  | other apart unnamed old =>
    obtain ⟨z, p', found, kind', companion⟩ := h.parent e x c old source
    have pair := h.pair old source found kind'
    cases parent with
    | self own form =>
      rw [own, free] at found
      exact nomatch found
    | parent c' z' p'' source' named takes form =>
      have record := takes.record
      rw [named] at record
      cases found.symm.trans record
      cases kind'.symm.trans takes.kind
      exact nomatch takes.alone.symm.trans companion
    | other apart' unnamed' old' =>
      cases found.symm.trans old'
      cases kind'.symm.trans kind
      exact pair

/-- A new record keeps the table's laws (R26). -/
theorem RecordsOk.allocate (h : RecordsOk s) (free : s.domain d = none) (range : q.InRange)
    (unique : ∀ e r, s.domain e = some r → r.label ≠ q.label) (check : s.sourceCheck q.source = none) :
    RecordsOk (s.allocate d q who) := by
  have stands : ∀ {e y}, (s.allocate d q who).domain e = some y → Allocated s d q who e y := State.allocate_stands check
  refine recordsOk_of_pairs (fun e y found => h.allocate_valid range (stands found))
    (fun e f y z found found' same => h.allocate_labels unique (stands found) (stands found') same)
    (fun e y c found source => h.allocate_parents free check (stands found) source)
    (fun e y p c found source companion => h.allocate_children free range (stands found) source companion)
    (fun e x c y p found source parent kind => h.allocate_pairs free (stands found) source (stands parent) kind)
    (fun e y found companion => ?_)
  cases stands found with
  | self own form => exact form ▸ nofun
  | parent c x p source named takes form =>
    rw [form]
    intro life
    have stops : x.stopping = true := Domain.stopping_iff.mpr (.inr life)
    exact nomatch takes.goes.symm.trans stops
  | other apart unnamed old => exact h.kept e y old companion

end Create

/-! The statement O57 -/

theorem RecordMove.keeps {s t : State} (h : RecordsOk s) (m : RecordMove s t) : RecordsOk t := by
  cases m with
  | stand t same => exact h.table same
  | alike d r q record label source level count life stop =>
    have valid := h.valid d r record
    refine h.set_alike record ⟨label ▸ valid.label, source ▸ valid.source, count ▸ valid.count, ?_,
      fun p same => source ▸ valid.slot p (life ▸ same)⟩ label source life
    rcases stop with same | range
    · exact same ▸ valid.stop
    · exact range
  | activate d r count record still ready counted => exact h.activate record still ready counted
  | pend d r p record active may => exact h.pend record active may
  | reviseLater d r q record active may => exact h.reviseLater record active may
  | reviseNow d r q record still may => exact h.reviseNow record still may
  | free d r record still alone => exact h.freeDomain record alone
  | create d q who free range unique check => exact h.allocate free range unique check

theorem TableMove.keeps_records {s t : State} (h : RecordsOk s) (m : TableMove s t) : RecordsOk t := by
  cases m with
  | stand => exact h
  | reset t records calendar time => exact recordsOk_free records
  | expel b => exact h.expelled b
  | rewind => exact h.rewound
  | advance x rest head range => exact h.processGroup.read fun _ => rfl
  | take k who params => exact RecordMove.keeps h (k.take_moves who params)

/-- Settles O57: every move of the Domain Table keeps its laws. -/
theorem everyStepKeepsTheRecords : Obligations.EveryStepKeepsTheRecords := fun _ _ h taken =>
  step_keeps_table (P := RecordsOk) (fun _ _ h same => h.table same) (fun _ _ h m => TableMove.keeps_records h m) h taken

end Sys2Proof.Safety
end

section
/-! SUPPORT. New entries stand ahead of the instant at which they are made (R2, R6, R9, R10, R14, R67): the statement O58. -/

namespace Sys2Proof.Safety

open Sys2Proof.Machine

/-! Sorted calendars ahead of an instant -/

/-- A calendar sorted by time and domain number, every entry later than an instant. -/
structure SortedAfter (t : Nat) (c : List Entry) : Prop where
  sorted : c.Pairwise fun x y => y.before x = false
  ahead : ∀ x ∈ c, t < x.time

theorem SortedAfter.insert {t : Nat} {c : List Entry} {x : Entry} (h : SortedAfter t c) (later : t < x.time) :
    SortedAfter t (Calendar.insert x c) := by
  refine ⟨Calendar.sorted_insert h.sorted, fun y listed => ?_⟩
  rcases Calendar.mem_insert.mp listed with rfl | old
  · exact later
  · exact h.ahead y old

theorem SortedAfter.filter {t : Nat} {c : List Entry} (h : SortedAfter t c) (keep : Entry → Bool) :
    SortedAfter t (c.filter keep) :=
  ⟨h.sorted.filter _, fun x listed => h.ahead x (List.mem_filter.mp listed).1⟩

/-- The entries of a calendar that are not its head's instant are later. -/
theorem SortedAfter.tail {t : Nat} {x : Entry} {rest : List Entry} (h : SortedAfter t (x :: rest)) :
    SortedAfter x.time ((x :: rest).filter fun e => !decide (e.time = x.time)) := by
  refine ⟨h.sorted.filter _, fun y listed => ?_⟩
  obtain ⟨old, other⟩ := List.mem_filter.mp listed
  have apart : y.time ≠ x.time := by simpa using other
  rcases List.mem_cons.mp old with rfl | later
  · exact absurd rfl apart
  · have order := (List.pairwise_cons.mp h.sorted).1 y later
    rw [← Bool.not_eq_true, Entry.before_iff] at order
    omega

/-! New entries (R6, R9, R10, R14) -/

section Edges
variable {s : State} {d : DomainNo} {r : Domain} {t : Nat}

/-- The ranges of a primary's wave (R3). -/
theorem RecordsOk.wave (h : RecordsOk s) (record : s.domain d = some r) {p : Primary} (source : r.source = .primary p) :
    waveInRange p.period p.high p.phase := by
  have range := (h.valid d r record).source
  rwa [source] at range

/-- A companion, its parent and what binds them (R3, R7, R8). -/
theorem RecordsOk.bound (h : RecordsOk s) (record : s.domain d = some r) {c : Companion} (source : r.source = .companion c) :
    ∃ q p, s.domain c.parent = some q ∧ q.source = .primary p ∧ p.companion = some d ∧
      waveInRange p.period p.high p.phase ∧ (1 ≤ c.gap ∧ c.gap ≤ 255) ∧ p.high + 2 * c.gap + 1 ≤ p.period := by
  obtain ⟨q, p, found, kind, companion⟩ := h.parent d r c record source
  have range := (h.valid d r record).source
  rw [source] at range
  have fits := gapOk_iff.mp (h.gap d r c q p record source found kind).1
  rw [Domain.gap_companion source] at fits
  exact ⟨q, p, found, kind, companion, h.wave found kind, range, fits⟩

theorem RecordsOk.edgeAfter_later (h : RecordsOk s) (record : s.domain d = some r) (kind : EdgeKind) :
    t < (s.edgeAfter d r kind t).time := by
  cases source : r.source with
  | primary p =>
    obtain ⟨_, _, one, below, _⟩ := h.wave record source
    rw [State.edgeAfter_primary source]
    cases kind <;> dsimp only [Primary.nextEdge] <;> omega
  | companion c =>
    obtain ⟨q, p, found, primary, _, _, _, fits⟩ := h.bound record source
    rw [State.edgeAfter_companion source found primary]
    cases kind <;> dsimp only [Primary.nextEdgeOf] <;> omega

theorem Primary.firstEdge_later (p : Primary) (d : DomainNo) (now : Nat) : now < (p.firstEdge d now).time := by
  unfold Primary.firstEdge
  split <;> exact le_firstAtOrAfter ..

theorem Companion.firstEdge_later (c : Companion) (p : Primary) (d : DomainNo) {l now : Nat} (gap : 1 ≤ c.gap)
    (from_ : now ≤ l) : now < (c.firstEdge p d l).time := by
  have least := le_firstAtOrAfter (l + c.gap) (p.phase + p.high + c.gap) p.period
  dsimp only [Companion.firstEdge]
  omega

theorem State.startBound_from (ahead : ∀ x ∈ s.calendar, s.time < x.time) (c : Companion) (parent : Domain) :
    s.time ≤ s.startBound c parent := by
  unfold State.startBound
  split
  · exact le_refl _
  · split
    · rename_i e next
      exact Nat.le_of_lt (ahead e (List.mem_of_find?_eq_some next))
    · exact le_refl _

theorem RecordsOk.firstEdge_later (h : RecordsOk s) (ahead : ∀ x ∈ s.calendar, s.time < x.time)
    (record : s.domain d = some r) : s.time < (s.firstEdge d r).time := by
  cases source : r.source with
  | primary p =>
    simp only [State.firstEdge, source]
    exact Primary.firstEdge_later ..
  | companion c =>
    obtain ⟨q, p, found, primary, _, _, ⟨gap, _⟩, _⟩ := h.bound record source
    simp only [State.firstEdge, source, State.parentOf_eq found primary]
    exact Companion.firstEdge_later c p d gap (State.startBound_from ahead c q)

theorem RecordsOk.rewindEdge_later (h : RecordsOk s) (record : s.domain d = some r) : 0 < (s.rewindEdge d r).time := by
  cases source : r.source with
  | primary p =>
    simp only [State.rewindEdge, source]
    exact Primary.firstEdge_later ..
  | companion c =>
    obtain ⟨q, p, found, primary, _, _, ⟨gap, _⟩, _⟩ := h.bound record source
    simp only [State.rewindEdge, source, State.parentOf_eq found primary]
    split
    · exact Companion.firstEdge_later c p d gap (Nat.zero_le _)
    · exact Companion.firstEdge_later c p d gap (Nat.zero_le _)

end Edges

/-! The steps of an edge (R78) -/

section Steps
variable {w : Advance} {d c : DomainNo} {t : Nat}

theorem SortedAfter.level (h : SortedAfter t w.state.calendar) (kind : EdgeKind) :
    SortedAfter t (w.level d kind).state.calendar :=
  Advance.withRecord_keeps (P := fun s => SortedAfter t s.calendar) h fun _ _ => h

theorem SortedAfter.ownRevision (h : SortedAfter t w.state.calendar) :
    SortedAfter t (w.ownRevision d t).state.calendar :=
  Advance.withRecord_keeps (P := fun s => SortedAfter t s.calendar) h fun _ _ => by split <;> exact h

theorem SortedAfter.rekeyCompanion (h : SortedAfter t w.state.calendar) {p : Primary} (high : 1 ≤ p.high) :
    SortedAfter t (w.rekeyCompanion p c t).state.calendar :=
  Advance.withRecord_keeps (P := fun s => SortedAfter t s.calendar) h fun _ _ =>
    (h.filter _).insert (by dsimp only; omega)

theorem SortedAfter.settleCompanion (h : SortedAfter t w.state.calendar) {p : Primary} (high : 1 ≤ p.high) (due : Bool) :
    SortedAfter t (w.settleCompanion p c t due).state.calendar := by
  refine Advance.withRecord_keeps (P := fun s => SortedAfter t s.calendar) h fun x _ => ?_
  split
  · rename_i gap _
    have revised : SortedAfter t (w.revised c (x.reviseCompanion gap)).state.calendar := h
    exact revised.rekeyCompanion high
  · split
    · exact h.rekeyCompanion high
    · exact h
  · exact h
  · exact h

theorem SortedAfter.revision (ok : RecordsOk w.state) (h : SortedAfter t w.state.calendar) :
    SortedAfter t (w.revision d t).state.calendar := by
  refine Advance.withRecord_keeps (P := fun s => SortedAfter t s.calendar) h fun before _ =>
    Advance.withRecord_keeps (P := fun s => SortedAfter t s.calendar) h.ownRevision fun r found => ?_
  split
  · exact h.ownRevision
  · rename_i p source
    obtain ⟨_, _, high, _⟩ := ok.ownRevision.wave found source
    split
    · exact h.ownRevision
    · exact h.ownRevision.settleCompanion high _

theorem SortedAfter.count (h : SortedAfter t w.state.calendar) : SortedAfter t (w.count d).state.calendar :=
  Advance.withRecord_keeps (P := fun s => SortedAfter t s.calendar) h fun _ _ => by
    dsimp only
    split <;> exact h

theorem SortedAfter.finish (ok : RecordsOk w.state) (h : SortedAfter t w.state.calendar) (kind : EdgeKind) :
    SortedAfter t (w.finish d kind t).state.calendar := by
  refine Advance.withRecord_keeps (P := fun s => SortedAfter t s.calendar) h fun r found => ?_
  have onward : SortedAfter t (w.state.insertEntry (w.state.edgeAfter d r kind t)).calendar :=
    h.insert (ok.edgeAfter_later found kind)
  dsimp only
  split
  · split
    · exact h
    · have freed : (w.state.freeDomain d).calendar = w.state.calendar := State.freeDomain_calendar w.state d
      exact freed.symm ▸ h
    all_goals exact onward
  · exact onward

theorem SortedAfter.edge (ok : RecordsOk w.state) (h : SortedAfter t w.state.calendar) (x : Entry) :
    SortedAfter t (w.edge t x).state.calendar := by
  unfold Advance.edge
  split
  · exact SortedAfter.finish (ok.level _).revision.count (SortedAfter.revision (ok.level _) (h.level _)).count _
  · exact SortedAfter.finish (ok.level _) (h.level _) _

theorem SortedAfter.edges {l : List Entry} (ok : RecordsOk w.state) (h : SortedAfter t w.state.calendar) :
    SortedAfter t (l.foldl (Advance.edge t) w).state.calendar := by
  induction l generalizing w with
  | nil => exact h
  | cons x xs ih => exact ih (ok.edge x) (h.edge ok x)

theorem SortedAfter.processGroup {s : State} {now : Nat} {x : Entry} {rest : List Entry} (ok : RecordsOk s)
    (h : SortedAfter now s.calendar) (head : s.calendar = x :: rest) :
    SortedAfter x.time (s.processGroup x.time).state.calendar := by
  refine SortedAfter.edges (ok.read fun _ => rfl) ?_
  have later : SortedAfter x.time (s.calendar.filter fun e => !decide (e.time = x.time)) := by
    rw [head] at h ⊢
    exact h.tail
  exact later

end Steps

/-! The statement O58 -/

theorem CalendarAhead.after {s : State} (h : CalendarAhead s) : SortedAfter s.time s.calendar := ⟨h.sorted, h.ahead⟩

theorem SortedAfter.calendarAhead {s : State} (h : SortedAfter s.time s.calendar) (time : s.time < 2 ^ 48) :
    CalendarAhead s := ⟨h.sorted, h.ahead, time⟩

theorem CalendarAhead.same {s t : State} (h : CalendarAhead s) (calendar : t.calendar = s.calendar) (time : t.time = s.time) :
    CalendarAhead t := by
  refine SortedAfter.calendarAhead ?_ (time.symm ▸ h.time)
  rw [calendar, time]
  exact h.after

theorem RecordMove.keeps_ahead {s t : State} (ok : RecordsOk s) (h : CalendarAhead s) (m : RecordMove s t) :
    CalendarAhead t := by
  cases m with
  | stand t same => exact h.same same.calendar same.time
  | alike d r q _ _ _ _ _ _ _ => exact h.same rfl rfl
  | activate d r count record _ _ _ =>
    exact SortedAfter.calendarAhead (h.after.insert (ok.firstEdge_later h.ahead record)) h.time
  | pend d r p _ _ _ => exact h.same rfl rfl
  | reviseLater d r q _ _ _ => exact h.same rfl rfl
  | reviseNow d r q _ _ _ => exact h.same rfl rfl
  | free d r _ _ _ => exact h.same (State.freeDomain_calendar s d) (State.freeDomain_time s d)
  | create d q who _ _ _ _ =>
    unfold State.allocate
    split <;> exact h.same rfl rfl

theorem RecordsOk.rewound_ahead {s : State} (ok : RecordsOk s) : CalendarAhead s.rewindRecords := by
  have rewound : RecordsOk s.rewindRecords := ok.rewound
  have time : s.rewindRecords.time = 0 := by rw [State.rewindRecords_eq]
  refine SortedAfter.calendarAhead ⟨?_, fun x listed => ?_⟩ (time.symm ▸ Nat.two_pow_pos 48)
  · exact (State.sorted_rebuildCalendar _).imp fun order => Entry.before_asymm order
  · obtain ⟨r, record, _, form⟩ := (State.mem_rewound (fun _ => rfl) rfl).mp listed
    rw [time, form]
    exact rewound.rewindEdge_later record

theorem TableMove.keeps_ahead {s t : State} (ok : RecordsOk s) (h : CalendarAhead s) (m : TableMove s t) :
    CalendarAhead t := by
  cases m with
  | stand => exact h
  | reset t records calendar time => exact calendarAhead_empty calendar (time.symm ▸ Nat.two_pow_pos 48)
  | expel b => exact h.same (State.mapDomains_calendar s _) (State.mapDomains_time s _)
  | rewind => exact ok.rewound_ahead
  | advance x rest head range => exact SortedAfter.calendarAhead (SortedAfter.processGroup ok h.after head) range
  | take k who params => exact RecordMove.keeps_ahead ok h (k.take_moves who params)

/-- Settles O58: with the Domain Table's laws, every entry a move makes stands ahead of the time it leaves. -/
theorem everyStepKeepsTheCalendarAhead : Obligations.EveryStepKeepsTheCalendarAhead := fun _ _ ok h taken =>
  (step_keeps_table (P := fun s => RecordsOk s ∧ CalendarAhead s)
    (fun _ _ ⟨ok, h⟩ same => ⟨ok.table same, h.same same.calendar same.time⟩)
    (fun _ _ ⟨ok, h⟩ m => ⟨TableMove.keeps_records ok m, TableMove.keeps_ahead ok h m⟩) ⟨ok, h⟩ taken).2

end Sys2Proof.Safety
end

section
/-! SUPPORT. The calendar against the records, with some records left out: what an entry taken out and put back needs
(R4, R5, R6, R17, R68, R71): the statement O59. -/

namespace Sys2Proof.Safety

open Sys2Proof.Machine

/-! What the calendar's laws read of a record -/

/-- A source without its companion field. -/
def bare : Source → Source
  | .primary p => .primary { p with companion := none }
  | .companion c => .companion c

/-- What the calendar's laws read of a record. -/
structure Face where
  level : Level
  active : Bool
  source : Source

def face (r : Domain) : Face := ⟨r.level, r.isActive, bare r.source⟩

def faces (s : State) (d : DomainNo) : Option Face := (s.domain d).map face

def Face.park (f : Face) : Level :=
  match f.source with
  | .primary p => p.park
  | .companion _ => .low

section Read
variable {s : State} {d e : DomainNo} {r : Domain}

theorem face_park : (face r).park = r.park := by
  unfold Face.park Domain.park face bare
  cases r.source <;> rfl

theorem face_withCompanion (c : Option DomainNo) : face (r.withCompanion c) = face r := by
  unfold face Domain.withCompanion Domain.isActive
  cases source : r.source <;> simp only [source, bare]

theorem face_primary {p : Primary} (source : r.source = .primary p) :
    (face r).source = .primary { p with companion := none } := by
  simp only [face, source, bare]

theorem face_companion {c : Companion} (source : r.source = .companion c) : (face r).source = .companion c := by
  simp only [face, source, bare]

theorem source_of_primary {p : Primary} (source : (face r).source = .primary p) :
    ∃ q, r.source = .primary q ∧ p = { q with companion := none } := by
  cases kind : r.source with
  | primary q => exact ⟨q, rfl, Source.primary.inj (source.symm.trans (face_primary kind))⟩
  | companion c => exact nomatch source.symm.trans (face_companion kind)

theorem source_of_companion {c : Companion} (source : (face r).source = .companion c) : r.source = .companion c := by
  cases kind : r.source with
  | primary q => exact nomatch source.symm.trans (face_primary kind)
  | companion b => exact congrArg _ (Source.companion.inj ((face_companion kind).symm.trans source))

theorem faces_some (record : s.domain d = some r) : faces s d = some (face r) := by rw [faces, record]; rfl

theorem faces_none (free : s.domain d = none) : faces s d = none := by rw [faces, free]; rfl

theorem faces_read {f : Face} (found : faces s d = some f) : ∃ r, s.domain d = some r ∧ f = face r := by
  obtain ⟨r, record, form⟩ := Option.map_eq_some_iff.mp found
  exact ⟨r, record, form.symm⟩

theorem faces_domain {t : State} (read : t.domain e = s.domain e) : faces t e = faces s e := by rw [faces, faces, read]

theorem faces_setDomain {x : Option Domain} (apart : e ≠ d) : faces (s.setDomain d x) e = faces s e :=
  faces_domain (by rw [State.domain_setDomain, if_neg apart])

theorem faces_written {q : Domain} : faces (s.setDomain d (some q)) d = some (face q) := faces_some State.domain_written

/-- A record changed in what the calendar's laws do not read. -/
theorem faces_alike {q : Domain} (record : s.domain d = some r) (same : face q = face r) :
    faces (s.setDomain d (some q)) e = faces s e := by
  by_cases own : e = d
  · rw [own, faces_written, faces_some record, same]
  · exact faces_setDomain own

theorem faces_freeDomain (record : s.domain d = some r) (apart : e ≠ d) : faces (s.freeDomain d) e = faces s e := by
  by_cases named : ∃ c, r.source = .companion c ∧ c.parent = e
  · rw [faces, State.freeDomain_parent record apart named, Option.map_map, faces]
    exact congrArg (fun f => (s.domain e).map f) (funext fun _ => face_withCompanion none)
  · exact faces_domain (State.freeDomain_apart record apart named)

theorem faces_allocate {q : CreateParams} {who : Owner} (apart : e ≠ d) :
    faces (s.allocate d q who) e = faces s e := by
  by_cases named : ∃ c, q.source = .companion c ∧ c.parent = e
  · rw [faces, State.allocate_parent apart named, Option.map_map, faces]
    exact congrArg (fun f => (s.domain e).map f) (funext fun _ => face_withCompanion (some d))
  · exact faces_domain (State.allocate_apart apart named)

end Read

/-! Entries against records -/

/-- The residue of an edge of a wave (R4). -/
def residue (p : Primary) : EdgeKind → Nat
  | .rise => p.phase
  | .fall => p.phase + p.high

/-- An entry against its own record (R4, R5, R6, R17). -/
structure Booked (now : Nat) (x : Entry) (f : Face) : Prop where
  active : f.active = true
  kind : x.kind = .rise ↔ f.level = .low
  near : ∀ p, f.source = .primary p → x.time ≤ now + p.period
  phase : ∀ p, f.source = .primary p → x.time % p.period = residue p x.kind % p.period

/-- Entries against the records, some records left out: they have no entry, and nothing is asked of them. -/
structure Scheduled (out : DomainNo → Prop) (listed : Entry → Prop) (look : DomainNo → Option Face) (now : Nat) : Prop where
  unique : ∀ x y, listed x → listed y → x.domain = y.domain → x = y
  inside : ∀ x, listed x → ¬ out x.domain
  active : ∀ d f, ¬ out d → look d = some f → f.active = true → ∃ x, listed x ∧ x.domain = d
  booked : ∀ x, listed x → ∃ f, look x.domain = some f ∧ Booked now x f
  parked : ∀ d f, ¬ out d → look d = some f → f.active = false → f.level = f.park
  pairs : ∀ x y f g c p, listed x → listed y → look x.domain = some f → f.source = .companion c → y.domain = c.parent →
    look c.parent = some g → g.source = .primary p → pairTimed p c.gap g.level f.level y.time x.time

/-- No record is left out. -/
def nobody : DomainNo → Prop := fun _ => False

/-- One record more is left out. -/
def also (d : DomainNo) (out : DomainNo → Prop) : DomainNo → Prop := fun e => e = d ∨ out e

section Scheduled
variable {out : DomainNo → Prop} {listed listed' : Entry → Prop} {look look' : DomainNo → Option Face} {now : Nat}
  {d : DomainNo}

/-- The records left out may change. -/
theorem Scheduled.congr (h : Scheduled out listed look now) (entries : ∀ x, listed' x ↔ listed x)
    (read : ∀ e, ¬ out e → look' e = look e) : Scheduled out listed' look' now := by
  have own : ∀ x, listed x → look' x.domain = look x.domain := fun x mem => read _ (h.inside x mem)
  refine ⟨?_, ?_, ?_, ?_, ?_, ?_⟩
  · simpa only [entries] using h.unique
  · simpa only [entries] using h.inside
  · intro e f inside found
    rw [read e inside] at found
    simpa only [entries] using h.active e f inside found
  · intro x mem
    rw [entries] at mem
    rw [own x mem]
    exact h.booked x mem
  · intro e f inside found
    rw [read e inside] at found
    exact h.parked e f inside found
  · intro x y f g c p mem mem' found source parent found' kind
    rw [entries] at mem mem'
    rw [own x mem] at found
    rw [← parent, own y mem', parent] at found'
    exact h.pairs x y f g c p mem mem' found source parent found' kind

theorem Booked.later {now' : Nat} {x : Entry} {f : Face} (h : Booked now x f) (le : now ≤ now') : Booked now' x f :=
  ⟨h.active, h.kind, fun p source => (h.near p source).trans (by omega), h.phase⟩

theorem Scheduled.later {now' : Nat} (h : Scheduled out listed look now) (le : now ≤ now') :
    Scheduled out listed look now' :=
  { h with
    booked := fun x mem => by
      obtain ⟨f, found, booked⟩ := h.booked x mem
      exact ⟨f, found, booked.later le⟩ }

/-- A record's entry is taken out. -/
theorem Scheduled.drop (h : Scheduled out listed look now) (entries : ∀ x, listed' x ↔ listed x ∧ x.domain ≠ d) :
    Scheduled (also d out) listed' look now := by
  have old : ∀ {x}, listed' x → listed x := fun mem => ((entries _).mp mem).1
  refine ⟨fun x y mem mem' => h.unique x y (old mem) (old mem'), fun x mem => ?_, fun e f inside found active => ?_,
    fun x mem => h.booked x (old mem), fun e f inside => h.parked e f fun left => inside (.inr left),
    fun x y f g c p mem mem' => h.pairs x y f g c p (old mem) (old mem')⟩
  · rintro (own | left)
    · exact ((entries x).mp mem).2 own
    · exact h.inside x (old mem) left
  · obtain ⟨x, mem, own⟩ := h.active e f (fun left => inside (.inr left)) found active
    exact ⟨x, (entries x).mpr ⟨mem, fun same => inside (.inl (own.symm.trans same))⟩, own⟩

/-- A record that is not ACTIVE has no entry. -/
theorem Scheduled.unlisted (h : Scheduled out listed look now) {f : Face} (found : look d = some f)
    (still : f.active = false) {x : Entry} (mem : listed x) : x.domain ≠ d := by
  rintro rfl
  obtain ⟨g, found', booked⟩ := h.booked x mem
  cases found.symm.trans found'
  exact nomatch still.symm.trans booked.active

/-- A free record has no entry. -/
theorem Scheduled.unlisted_free (h : Scheduled out listed look now) (free : look d = none) {x : Entry} (mem : listed x) :
    x.domain ≠ d := by
  rintro rfl
  obtain ⟨g, found, _⟩ := h.booked x mem
  exact nomatch free.symm.trans found

theorem Scheduled.aside (h : Scheduled out listed look now) (unlisted : ∀ x, listed x → x.domain ≠ d) :
    Scheduled (also d out) listed look now :=
  h.drop fun x => ⟨fun mem => ⟨mem, unlisted x mem⟩, fun mem => mem.1⟩

/-- A record that is not ACTIVE is put back parked. -/
theorem Scheduled.rest (h : Scheduled (also d out) listed look now)
    (still : ∀ f, look d = some f → f.active = false ∧ f.level = f.park) : Scheduled out listed look now := by
  refine ⟨h.unique, fun x mem left => h.inside x mem (.inr left), fun e f inside found active => ?_, h.booked,
    fun e f inside found idle => ?_, h.pairs⟩
  · by_cases own : e = d
    · subst own
      obtain ⟨idle, _⟩ := still f found
      exact nomatch active.symm.trans idle
    · exact h.active e f (fun left => left.elim own inside) found active
  · by_cases own : e = d
    · subst own
      exact (still f found).2
    · exact h.parked e f (fun left => left.elim own inside) found idle

/-- An entry of `d` against the other entries (R8, R71). -/
structure FitsPairs (listed : Entry → Prop) (look : DomainNo → Option Face) (d : DomainNo) (f : Face) (time : Nat) : Prop where
  up : ∀ y g c p, f.source = .companion c → listed y → y.domain = c.parent → look c.parent = some g →
    g.source = .primary p → pairTimed p c.gap g.level f.level y.time time
  down : ∀ y g c p, f.source = .primary p → listed y → look y.domain = some g → g.source = .companion c → c.parent = d →
    pairTimed p c.gap f.level g.level time y.time

/-- A record's entry is put in. -/
theorem Scheduled.book (h : Scheduled (also d out) listed look now) {x : Entry} {f : Face} (own : x.domain = d)
    (inside : ¬ out d) (entries : ∀ y, listed' y ↔ y = x ∨ listed y) (found : look d = some f) (booked : Booked now x f)
    (fits : FitsPairs listed look d f x.time) : Scheduled out listed' look now := by
  have apart : ∀ y, listed y → y.domain ≠ d := fun y mem same => h.inside y mem (.inl same)
  refine ⟨fun y z mem mem' same => ?_, fun y mem left => ?_, fun e g within found' active => ?_, fun y mem => ?_,
    fun e g within found' idle => ?_, fun y z g g' c p mem mem' found' source parent look' kind => ?_⟩
  · rcases (entries y).mp mem with rfl | old <;> rcases (entries z).mp mem' with rfl | old'
    · rfl
    · exact absurd (same.symm.trans own) (apart z old')
    · exact absurd (same.trans own) (apart y old)
    · exact h.unique y z old old' same
  · rcases (entries y).mp mem with rfl | old
    · exact inside (own ▸ left)
    · exact h.inside y old (.inr left)
  · by_cases same : e = d
    · exact ⟨x, (entries x).mpr (.inl rfl), own.trans same.symm⟩
    · obtain ⟨y, old, name⟩ := h.active e g (fun left => left.elim same within) found' active
      exact ⟨y, (entries y).mpr (.inr old), name⟩
  · rcases (entries y).mp mem with rfl | old
    · exact ⟨f, own ▸ found, booked⟩
    · exact h.booked y old
  · by_cases same : e = d
    · subst same
      cases found.symm.trans found'
      exact nomatch booked.active.symm.trans idle
    · exact h.parked e g (fun left => left.elim same within) found' idle
  · rcases (entries y).mp mem with rfl | old <;> rcases (entries z).mp mem' with rfl | old'
    · rw [own] at found'
      rw [← parent, own] at look'
      cases found'.symm.trans look'
      exact nomatch source.symm.trans kind
    · rw [own] at found'
      cases found.symm.trans found'
      exact fits.up z g' c p source old' parent look' kind
    · have self : c.parent = d := parent.symm.trans own
      rw [self] at look'
      cases found.symm.trans look'
      exact fits.down y g c p kind old found' source self
    · exact h.pairs y z g g' c p old old' found' source parent look' kind

end Scheduled

/-! The calendar's laws -/

section Exact
variable {s : State}

theorem CalendarExact.scheduled (h : CalendarExact s) :
    Scheduled nobody (fun x => x ∈ s.calendar) (faces s) s.time := by
  refine ⟨fun x y mem mem' => h.unique x mem y mem', fun _ _ => id, fun d f _ found active => ?_, fun x mem => ?_,
    fun d f _ found idle => ?_, fun x y f g c p mem mem' found source parent found' kind => ?_⟩
  · obtain ⟨r, record, rfl⟩ := faces_read found
    exact h.active d r record active
  · obtain ⟨r, record, active, kind⟩ := h.owned x mem
    refine ⟨face r, faces_some record, active, kind, fun p source => ?_, fun p source => ?_⟩
    · obtain ⟨q, primary, rfl⟩ := source_of_primary source
      exact h.near x mem r q record primary
    · obtain ⟨q, primary, rfl⟩ := source_of_primary source
      have phase := h.phase x mem r q record primary
      cases form : x.kind with
      | rise => rw [form] at phase; exact phase
      | fall => rw [form] at phase; exact phase
  · obtain ⟨r, record, rfl⟩ := faces_read found
    rw [face_park]
    exact h.parked d r record idle
  · obtain ⟨r, record, rfl⟩ := faces_read found
    obtain ⟨q, record', rfl⟩ := faces_read found'
    obtain ⟨p', primary, rfl⟩ := source_of_primary kind
    exact h.pairs x mem y mem' r q c p' record (source_of_companion source) parent record' primary

theorem pairTimed_near {p : Primary} {gap : Nat} {parentLevel level : Level} {parentTime time : Nat}
    (timed : pairTimed p gap parentLevel level parentTime time) (below : p.high < p.period)
    (fits : p.high + 2 * gap + 1 ≤ p.period) : time ≤ parentTime + p.period + gap := by
  cases parentLevel <;> cases level <;> dsimp only [pairTimed] at timed
  · omega
  · omega
  · omega

/-- A primary's entry lies a period ahead at most, and its companion's less than a period and a gap from it (R67). -/
theorem Scheduled.range (ok : RecordsOk s) (h : Scheduled nobody (fun x => x ∈ s.calendar) (faces s) s.time)
    (time : s.time < 2 ^ 48) : ∀ x ∈ s.calendar, x.time < 2 ^ 49 := by
  have primary : ∀ x ∈ s.calendar, ∀ r p, s.domain x.domain = some r → r.source = .primary p →
      x.time < 2 ^ 48 + 65536 := fun x mem r p record source => by
    obtain ⟨f, found, booked⟩ := h.booked x mem
    cases (faces_some record).symm.trans found
    have near := booked.near _ (face_primary source)
    obtain ⟨_, most, _⟩ := ok.wave record source
    dsimp only at near
    omega
  intro x mem
  obtain ⟨f, found, booked⟩ := h.booked x mem
  obtain ⟨r, record, rfl⟩ := faces_read found
  cases source : r.source with
  | primary p =>
    have := primary x mem r p record source
    omega
  | companion c =>
    obtain ⟨q, p, parent, kind, _, ⟨_, most, _, below, _⟩, _, fits⟩ := ok.bound record source
    obtain ⟨active, _⟩ := ok.coupled x.domain r c q record source booked.active parent
    obtain ⟨y, mem', own⟩ := h.active c.parent (face q) id (faces_some parent) active
    have least := primary y mem' q p (own ▸ parent) kind
    have timed := h.pairs x y _ _ c _ mem mem' found (face_companion source) own (faces_some parent) (face_primary kind)
    have near : x.time ≤ y.time + p.period + c.gap :=
      pairTimed_near (p := { p with companion := none }) timed below fits
    omega

theorem Scheduled.exact (ok : RecordsOk s) (h : Scheduled nobody (fun x => x ∈ s.calendar) (faces s) s.time)
    (sorted : s.calendar.Pairwise fun x y => x.before y = true) (ahead : ∀ x ∈ s.calendar, s.time < x.time)
    (time : s.time < 2 ^ 48) : CalendarExact s := by
  refine ⟨sorted, fun x mem y mem' => h.unique x y mem mem', fun d r record active => ?_, fun x mem => ?_, ahead, time,
    fun x mem => ⟨Nat.lt_of_le_of_lt (Nat.zero_le _) (ahead x mem), h.range ok time x mem⟩, fun x mem r p record source => ?_,
    fun x mem r p record source => ?_, fun d r record idle => ?_,
    fun x mem y mem' r q c p record source parent record' kind => ?_⟩
  · exact h.active d (face r) id (faces_some record) active
  · obtain ⟨f, found, booked⟩ := h.booked x mem
    obtain ⟨r, record, rfl⟩ := faces_read found
    exact ⟨r, record, booked.active, booked.kind⟩
  · obtain ⟨f, found, booked⟩ := h.booked x mem
    cases (faces_some record).symm.trans found
    have near := booked.near _ (face_primary source)
    exact near
  · obtain ⟨f, found, booked⟩ := h.booked x mem
    cases (faces_some record).symm.trans found
    have phase := booked.phase _ (face_primary source)
    cases form : x.kind with
    | rise => rw [form] at phase; exact phase
    | fall => rw [form] at phase; exact phase
  · have parked := h.parked d (face r) id (faces_some record) idle
    rwa [face_park] at parked
  · have timed := h.pairs x y _ _ c _ mem mem' (faces_some record) (face_companion source) parent (faces_some record')
      (face_primary kind)
    exact timed

end Exact
end Sys2Proof.Safety
end

section
/-! SUPPORT. An edge takes its record's entry out and puts the next one in, where the pair's timing holds again (R4, R8,
R11, R12, R71, R78): the statement O59. -/

namespace Sys2Proof.Safety

open Sys2Proof.Machine

/-! The timing of a pair, edge by edge (R8, R9) -/

section Timing
variable {p : Primary} {g t u : Nat} {level : Level}

theorem pairTimed_parent_fall (h : pairTimed p g .high level t u) (below : p.high < p.period) :
    pairTimed p g .low level (t + p.period - p.high) u := by
  cases level <;> dsimp only [pairTimed] at h ⊢
  omega

/-- When its parent rises, a companion is LOW and rises a gap after the parent's next fall. -/
theorem pairTimed_parent_rise (h : pairTimed p g .low level t u) (ahead : t ≤ u) (gap : 1 ≤ g)
    (fits : p.high + 2 * g + 1 ≤ p.period) : level = .low ∧ u = t + p.high + g := by
  cases level <;> dsimp only [pairTimed] at h
  · exact ⟨rfl, by omega⟩
  · omega

theorem pairTimed_child_rise (h : pairTimed p g level .low u t) (ahead : t ≤ u) (gap : 1 ≤ g)
    (fits : p.high + 2 * g + 1 ≤ p.period) : pairTimed p g level .high u (t + (p.period - p.high - 2 * g)) := by
  cases level <;> dsimp only [pairTimed] at h ⊢ <;> omega

theorem pairTimed_child_fall (h : pairTimed p g level .high u t) : pairTimed p g level .low u (t + p.high + 2 * g) := by
  cases level <;> dsimp only [pairTimed] at h ⊢
  omega

end Timing

theorem mod_rise {t phase period : Nat} (high : Nat) (h : t % period = phase % period) :
    (t + high) % period = (phase + high) % period := Nat.ModEq.add_right high h

theorem mod_fall {t phase period high : Nat} (h : t % period = (phase + high) % period) (below : high < period) :
    (t + period - high) % period = phase % period := by
  refine Nat.ModEq.add_right_cancel' high (?_ : _ ≡ _ [MOD period])
  rw [Nat.sub_add_cancel (by omega)]
  exact (Nat.add_mod_right t period).trans h

/-! The next edge, from what the calendar's laws read -/

def Face.next (look : DomainNo → Option Face) (f : Face) (d : DomainNo) (kind : EdgeKind) (t : Nat) : Entry :=
  match f.source with
  | .primary p => p.nextEdge d kind t
  | .companion c =>
    match look c.parent with
    | some ⟨_, _, .primary p⟩ => p.nextEdgeOf c.gap d kind t
    | _ => ⟨t + 1, d, .rise⟩

section Next
variable {look : DomainNo → Option Face} {f : Face} {d : DomainNo} {kind : EdgeKind} {t : Nat}

theorem Face.next_primary {p : Primary} (source : f.source = .primary p) : f.next look d kind t = p.nextEdge d kind t := by
  simp only [Face.next, source]

theorem Face.next_companion {c : Companion} {g : Face} {p : Primary} (source : f.source = .companion c)
    (found : look c.parent = some g) (primary : g.source = .primary p) :
    f.next look d kind t = p.nextEdgeOf c.gap d kind t := by
  obtain ⟨level, active, _⟩ := g
  cases primary
  simp only [Face.next, source, found]

/-- The edge an advance inserts. -/
theorem RecordsOk.edgeAfter_next {s : State} {r : Domain} (ok : RecordsOk s) (record : s.domain d = some r) :
    s.edgeAfter d r kind t = (face r).next (faces s) d kind t := by
  cases source : r.source with
  | primary p =>
    rw [State.edgeAfter_primary source, Face.next_primary (face_primary source)]
    cases kind <;> rfl
  | companion c =>
    obtain ⟨q, p, found, primary, _⟩ := ok.bound record source
    rw [State.edgeAfter_companion source found primary,
      Face.next_companion (face_companion source) (faces_some found) (face_primary primary)]
    cases kind <;> rfl

end Next

/-! An advance under way -/

/-- The entries of an advance still to process, and the calendar. -/
def Listed (todo : List Entry) (s : State) (x : Entry) : Prop := x ∈ todo ∨ x ∈ s.calendar

/-- An advance to `t` with the entries of `todo` still to process. -/
structure InAdvance (out : DomainNo → Prop) (s : State) (todo : List Entry) (t : Nat) : Prop where
  sorted : s.calendar.Pairwise fun x y => x.before y = true
  after : ∀ x ∈ s.calendar, t < x.time
  now : ∀ x ∈ todo, x.time = t
  fresh : todo.Nodup
  plan : Scheduled out (Listed todo s) (faces s) t

section Basics
variable {out : DomainNo → Prop} {s v : State} {todo : List Entry} {t : Nat} {d : DomainNo} {x : Entry}

theorem InAdvance.from_now (h : InAdvance out s todo t) (mem : Listed todo s x) : t ≤ x.time := by
  rcases mem with here | later
  · exact Nat.le_of_eq (h.now x here).symm
  · exact Nat.le_of_lt (h.after x later)

/-- The records left out may change, the calendar standing. -/
theorem InAdvance.congr (h : InAdvance out s todo t) (calendar : v.calendar = s.calendar)
    (read : ∀ e, ¬ out e → faces v e = faces s e) : InAdvance out v todo t := by
  have same : ∀ x, Listed todo v x ↔ Listed todo s x := fun x => by rw [Listed, Listed, calendar]
  exact ⟨calendar.symm ▸ h.sorted, calendar.symm ▸ h.after, h.now, h.fresh, h.plan.congr same read⟩

/-- The entry processed is taken out. -/
theorem InAdvance.pop (h : InAdvance out s (x :: todo) t) : InAdvance (also x.domain out) s todo t := by
  obtain ⟨new, fresh⟩ := List.nodup_cons.mp h.fresh
  have first : Listed (x :: todo) s x := .inl List.mem_cons_self
  refine ⟨h.sorted, h.after, fun y mem => h.now y (List.mem_cons_of_mem x mem), fresh, h.plan.drop fun y => ⟨fun mem => ?_,
    fun ⟨mem, apart⟩ => ?_⟩⟩
  · have old : Listed (x :: todo) s y := mem.imp_left (List.mem_cons_of_mem x)
    refine ⟨old, fun own => ?_⟩
    have same := h.plan.unique y x old first own
    rw [same] at mem
    rcases mem with here | later
    · exact new here
    · exact absurd (h.now x List.mem_cons_self) (Nat.ne_of_gt (h.after x later))
  · exact mem.imp_left fun here => (List.mem_cons.mp here).resolve_left fun same => apart (congrArg Entry.domain same)

/-- An entry, put in the calendar. -/
theorem InAdvance.insert (h : InAdvance (also d out) s todo t) {f : Face} (own : x.domain = d) (inside : ¬ out d)
    (later : t < x.time) (calendar : v.calendar = Calendar.insert x s.calendar) (read : ∀ e, faces v e = faces s e)
    (found : faces s d = some f) (booked : Booked t x f) (fits : FitsPairs (Listed todo s) (faces s) d f x.time) :
    InAdvance out v todo t := by
  have entries : ∀ y, Listed todo v y ↔ y = x ∨ Listed todo s y := fun y => by
    rw [Listed, Listed, calendar, Calendar.mem_insert]
    tauto
  have new : ∀ y ∈ s.calendar, y.domain ≠ x.domain := fun y mem same =>
    h.plan.inside y (.inr mem) (.inl (same.trans own))
  refine ⟨calendar.symm ▸ Calendar.strict_insert h.sorted new, fun y mem => ?_, h.now, h.fresh, ?_⟩
  · rw [calendar] at mem
    rcases Calendar.mem_insert.mp mem with rfl | old
    · exact later
    · exact h.after y old
  · have put := h.plan.book own inside entries found booked fits
    exact put.congr (fun _ => Iff.rfl) fun e _ => read e

end Basics

/-- An entry against the others is as its pairs say. -/
theorem Scheduled.fits {out : DomainNo → Prop} {listed : Entry → Prop} {look : DomainNo → Option Face} {now : Nat}
    (h : Scheduled out listed look now) {x : Entry} {f : Face} (mem : listed x) (found : look x.domain = some f) :
    FitsPairs listed look x.domain f x.time := by
  refine ⟨fun y g c p source mem' parent found' kind => h.pairs x y f g c p mem mem' found source parent found' kind,
    fun y g c p kind mem' found' source self => ?_⟩
  have parent : look c.parent = some f := self ▸ found
  exact h.pairs y x g f c p mem' mem found' source self.symm parent kind

/-! One edge under way -/

/-- Domain `d` has made its edge at `t`; what is left is to put its next one in, or to complete. -/
structure Turned (s : State) (todo : List Entry) (d : DomainNo) (kind : EdgeKind) (t : Nat) : Prop where
  adv : InAdvance (also d nobody) s todo t
  level : ∀ f, faces s d = some f → f.level = kind.level
  booked : ∀ f, faces s d = some f → Booked t (f.next (faces s) d kind t) f
  fits : ∀ f, faces s d = some f → FitsPairs (Listed todo s) (faces s) d f (f.next (faces s) d kind t).time

theorem Turned.congr {s v : State} {todo : List Entry} {d : DomainNo} {kind : EdgeKind} {t : Nat}
    (h : Turned s todo d kind t) (calendar : v.calendar = s.calendar) (read : ∀ e, faces v e = faces s e) :
    Turned v todo d kind t := by
  have look : faces v = faces s := funext read
  have listed : Listed todo v = Listed todo s := funext fun x => by rw [Listed, Listed, calendar]
  refine ⟨h.adv.congr calendar fun e _ => read e, ?_, ?_, ?_⟩
  · rw [look]
    exact h.level
  · rw [look]
    exact h.booked
  · rw [look, listed]
    exact h.fits

/-- A primary has risen: its companion is LOW and its next edge is later. -/
structure Risen (s : State) (todo : List Entry) (d : DomainNo) (t : Nat) (p : Primary) : Prop where
  adv : InAdvance (also d nobody) s todo t
  risen : faces s d = some ⟨.high, true, .primary p⟩
  phase : t % p.period = p.phase % p.period
  wave : 1 ≤ p.high ∧ p.high < p.period
  children : ∀ y g c, Listed todo s y → faces s y.domain = some g → g.source = .companion c → c.parent = d →
    g.level = .low ∧ t < y.time

/-- The companion rises a gap after the fall of the primary that has risen. -/
def ChildTimed (s : State) (todo : List Entry) (d : DomainNo) (t : Nat) (p : Primary) : Prop :=
  ∀ y g c, Listed todo s y → faces s y.domain = some g → g.source = .companion c → c.parent = d →
    y.time = t + p.high + c.gap

section Risen
variable {s v : State} {todo : List Entry} {d c : DomainNo} {t : Nat} {p : Primary}

theorem Risen.turned (h : Risen s todo d t p) (timed : ChildTimed s todo d t p) : Turned s todo d .rise t := by
  refine ⟨h.adv, fun f found => ?_, fun f found => ?_, fun f found => ?_⟩ <;> cases h.risen.symm.trans found
  · rfl
  · rw [Face.next_primary rfl]
    refine ⟨rfl, iff_of_false nofun nofun, fun q same => ?_, fun q same => ?_⟩ <;> cases same
    · have below := h.wave.2
      dsimp only [Primary.nextEdge]
      omega
    · exact mod_rise p.high h.phase
  · rw [Face.next_primary rfl]
    refine ⟨fun y g c q same => (nomatch same), fun y g c q same mem found' source self => ?_⟩
    cases same
    obtain ⟨low, _⟩ := h.children y g c mem found' source self
    rw [low, timed y g c mem found' source self]
    rfl

/-- The primary's own revision applies (R11). -/
theorem Risen.revise (h : Risen s todo d t p) {p' : Primary} (calendar : v.calendar = s.calendar)
    (read : ∀ e, e ≠ d → faces v e = faces s e) (face : faces v d = some ⟨.high, true, .primary p'⟩)
    (phase : t % p'.period = p'.phase % p'.period) (wave : 1 ≤ p'.high ∧ p'.high < p'.period) :
    Risen v todo d t p' := by
  refine ⟨h.adv.congr calendar fun e left => read e fun own => left (.inl own), face, phase, wave,
    fun y g c mem found source self => ?_⟩
  have mem : Listed todo s y := by rwa [Listed, calendar] at mem
  have apart : y.domain ≠ d := fun own => h.adv.plan.inside y mem (.inl own)
  rw [read _ apart] at found
  exact h.children y g c mem found source self

/-- The companion is settled: perhaps a new gap, and its entry re-keyed (R12, R71). -/
theorem Risen.rekey (h : Risen s todo d t p) {x y : Domain} {g gap : Nat} (apart : c ≠ d) (record : s.domain c = some x)
    (active : x.isActive = true) (source : x.source = .companion ⟨d, g⟩)
    (only : ∀ y f b, Listed todo s y → faces s y.domain = some f → f.source = .companion b → b.parent = d → y.domain = c)
    (level : y.level = x.level) (on : y.isActive = true) (kind : y.source = .companion ⟨d, gap⟩)
    (calendar : v.calendar = Calendar.insert ⟨t + p.high + gap, c, .rise⟩ (Calendar.erase c s.calendar))
    (read : ∀ e, e ≠ c → faces v e = faces s e) (own : faces v c = some (face y)) :
    Risen v todo d t p ∧ ChildTimed v todo d t p := by
  obtain ⟨z, listed, rfl⟩ := h.adv.plan.active c (face x) (fun left => left.elim apart id) (faces_some record) active
  obtain ⟨low, waits⟩ := h.children z _ _ listed (faces_some record) (face_companion source) rfl
  have low : y.level = .low := level.trans low
  generalize z.domain = c at *
  have erased : ∀ e, e ∈ todo → e.domain ≠ c := fun e mem same => by
    subst same
    obtain ⟨_, later⟩ := h.children e _ _ (.inl mem) (faces_some record) (face_companion source) rfl
    exact absurd (h.adv.now e mem) (Nat.ne_of_gt later)
  have taken : Scheduled (also c (also d nobody)) (fun e => Listed todo s e ∧ e.domain ≠ c) (faces v) t :=
    (h.adv.plan.drop (d := c) fun _ => Iff.rfl).congr (fun _ => Iff.rfl) fun e left => read e fun same => left (.inl same)
  have entries : ∀ e, Listed todo v e ↔ e = ⟨t + p.high + gap, c, .rise⟩ ∨ (Listed todo s e ∧ e.domain ≠ c) := fun e => by
    rw [Listed, Listed, calendar, Calendar.mem_insert, Calendar.mem_erase]
    have := erased e
    tauto
  have put : Scheduled (also d nobody) (Listed todo v) (faces v) t := by
    refine taken.book rfl (fun left => left.elim apart id) entries own
      ⟨on, iff_of_true rfl low, fun q same => (nomatch same.symm.trans (face_companion kind)),
        fun q same => nomatch same.symm.trans (face_companion kind)⟩
      ⟨fun e g b q same mem parent => ?_, fun e g b q same => nomatch same.symm.trans (face_companion kind)⟩
    cases same.symm.trans (face_companion kind)
    exact absurd (.inr (.inl parent)) (taken.inside e mem)
  have sorted : v.calendar.Pairwise fun x y => x.before y = true := by
    rw [calendar]
    exact Calendar.strict_insert (h.adv.sorted.filter _) fun e mem => (Calendar.mem_erase.mp mem).2
  have after : ∀ e ∈ v.calendar, t < e.time := fun e mem => by
    rw [calendar] at mem
    rcases Calendar.mem_insert.mp mem with rfl | old
    · have := h.wave.1
      dsimp only
      omega
    · exact h.adv.after e (Calendar.mem_erase.mp old).1
  have named : ∀ e f b, Listed todo v e → faces v e.domain = some f → f.source = .companion b → b.parent = d →
      e = ⟨t + p.high + gap, c, .rise⟩ := fun e f b mem found same parent => by
    rcases (entries e).mp mem with new | ⟨old, other⟩
    · exact new
    · rw [read _ other] at found
      exact absurd (only e f b old found same parent) other
  refine ⟨⟨⟨sorted, after, h.adv.now, h.adv.fresh, put⟩, (read d (Ne.symm apart)).trans h.risen, h.phase, h.wave,
    fun e f b mem found same parent => ?_⟩, fun e f b mem found same parent => ?_⟩
  · have form := named e f b mem found same parent
    subst form
    cases own.symm.trans found
    have := h.wave.1
    exact ⟨low, by dsimp only; omega⟩
  · have form := named e f b mem found same parent
    subst form
    cases own.symm.trans found
    cases same.symm.trans (face_companion kind)
    rfl

end Risen
end Sys2Proof.Safety
end

section
/-! SUPPORT. An advance keeps the calendar's laws, step by step of R78: the statement O59. -/

namespace Sys2Proof.Safety

open Sys2Proof.Machine

/-! Step 1 (R78) -/

section Level
variable {s v : State} {todo : List Entry} {d : DomainNo} {r : Domain} {kind : EdgeKind} {t : Nat}

theorem Booked.falls {x : Entry} {f : Face} (h : Booked t x f) (fall : x.kind = .fall) : f.level = .high := by
  cases level : f.level with
  | high => rfl
  | low => exact nomatch fall.symm.trans (h.kind.mpr level)

/-- What stands of the record that turns. -/
structure Turns (s : State) (todo : List Entry) (d : DomainNo) (r : Domain) (kind : EdgeKind) (t : Nat) : Prop where
  adv : InAdvance (also d nobody) s todo t
  record : s.domain d = some r
  booked : Booked t ⟨t, d, kind⟩ (face r)
  fits : FitsPairs (Listed todo s) (faces s) d (face r) t

theorem InAdvance.turns {x : Entry} (h : InAdvance nobody s (x :: todo) t) : ∃ r, Turns s todo x.domain r x.kind t := by
  have first : Listed (x :: todo) s x := .inl List.mem_cons_self
  have time : x.time = t := h.now x List.mem_cons_self
  obtain ⟨f, found, booked⟩ := h.plan.booked x first
  obtain ⟨r, record, rfl⟩ := faces_read found
  have fits := h.plan.fits first found
  rw [time] at fits
  subst time
  have old : ∀ {y}, Listed todo s y → Listed (x :: todo) s y := fun mem => mem.imp_left (List.mem_cons_of_mem x)
  exact ⟨r, h.pop, record, booked, fun y g c p same mem => fits.up y g c p same (old mem),
    fun y g c p same mem => fits.down y g c p same (old mem)⟩

/-- A primary falls: its companion, if it runs, rises a gap later (R8, R9). -/
theorem Turns.primary_falls (ok : RecordsOk s) (h : Turns s todo d r .fall t) {p : Primary}
    (source : r.source = .primary p) (calendar : v.calendar = s.calendar) (read : ∀ e, e ≠ d → faces v e = faces s e)
    (own : faces v d = some { face r with level := .low }) : Turned v todo d .fall t := by
  obtain ⟨_, _, _, below, _⟩ := ok.wave h.record source
  have kind := face_primary source
  have high : (face r).level = .high := h.booked.falls rfl
  refine ⟨h.adv.congr calendar fun e left => read e fun same => left (.inl same), fun f found => ?_, fun f found => ?_,
    fun f found => ?_⟩ <;> cases own.symm.trans found
  · rfl
  · rw [Face.next_primary (f := { face r with level := .low }) kind]
    refine ⟨h.booked.active, iff_of_true rfl rfl, fun q same => ?_, fun q same => ?_⟩ <;> cases kind.symm.trans same
    · dsimp only [Primary.nextEdge]
      omega
    · exact mod_fall (h.booked.phase _ kind) below
  · rw [Face.next_primary (f := { face r with level := .low }) kind]
    refine ⟨fun y g c q same => (nomatch kind.symm.trans same), fun y g c q same mem found' companion self => ?_⟩
    have same : (face r).source = .primary q := same
    have mem : Listed todo s y := by rwa [Listed, calendar] at mem
    rw [read _ fun here => h.adv.plan.inside y mem (.inl here)] at found'
    have timed := h.fits.down y g c q same mem found' companion self
    rw [high] at timed
    cases kind.symm.trans same
    exact pairTimed_parent_fall timed below

/-- A companion rises or falls inside its parent's low time (R8, R9). -/
theorem Turns.companion_turns (ok : RecordsOk s) (h : Turns s todo d r kind t) {c : Companion}
    (source : r.source = .companion c) (calendar : v.calendar = s.calendar) (read : ∀ e, e ≠ d → faces v e = faces s e)
    (own : faces v d = some { face r with level := kind.level }) : Turned v todo d kind t := by
  obtain ⟨q, p, found, primary, _, _, ⟨gap, _⟩, narrow⟩ := ok.bound h.record source
  have form := face_companion source
  have parent := faces_some found
  have above := face_primary primary
  have apart : c.parent ≠ d := fun same => by
    rw [same, h.record] at found
    cases found
    exact nomatch source.symm.trans primary
  have next : ({ face r with level := kind.level } : Face).next (faces v) d kind t =
      Primary.nextEdgeOf { p with companion := none } c.gap d kind t :=
    Face.next_companion form ((read _ apart).trans parent) above
  refine ⟨h.adv.congr calendar fun e left => read e fun same => left (.inl same), fun f here => ?_, fun f here => ?_,
    fun f here => ?_⟩ <;> cases own.symm.trans here
  · rfl
  · rw [next]
    refine ⟨h.booked.active, ?_, fun b same => (nomatch form.symm.trans same), fun b same => (nomatch form.symm.trans same)⟩
    cases kind
    · exact iff_of_false nofun nofun
    · exact iff_of_true rfl rfl
  · rw [next]
    refine ⟨fun y g b p' same mem named found' kind' => ?_, fun y g b p' same => (nomatch form.symm.trans same)⟩
    cases form.symm.trans same
    have mem : Listed todo s y := by rwa [Listed, calendar] at mem
    rw [read _ apart, parent] at found'
    cases found'
    cases above.symm.trans kind'
    have timed := h.fits.up y _ c _ form mem named parent above
    cases kind
    · have low : (face r).level = .low := h.booked.kind.mp rfl
      rw [low] at timed
      exact pairTimed_child_rise timed (h.adv.from_now mem) gap narrow
    · have high : (face r).level = .high := h.booked.falls rfl
      rw [high] at timed
      exact pairTimed_child_fall timed

/-- A primary rises: its companion, if it runs, is LOW and rises a gap after the fall (R8, R9). -/
theorem Turns.primary_rises (ok : RecordsOk s) (h : Turns s todo d r .rise t) {p : Primary}
    (source : r.source = .primary p) (calendar : v.calendar = s.calendar) (read : ∀ e, e ≠ d → faces v e = faces s e)
    (own : faces v d = some { face r with level := .high }) :
    Risen v todo d t { p with companion := none } ∧ ChildTimed v todo d t { p with companion := none } := by
  obtain ⟨_, _, one, below, _⟩ := ok.wave h.record source
  have kind := face_primary source
  have low : (face r).level = .low := h.booked.kind.mp rfl
  have waits : ∀ y g c, Listed todo v y → faces v y.domain = some g → g.source = .companion c → c.parent = d →
      g.level = .low ∧ y.time = t + p.high + c.gap := fun y g c mem found companion self => by
    have mem : Listed todo s y := by rwa [Listed, calendar] at mem
    rw [read _ fun here => h.adv.plan.inside y mem (.inl here)] at found
    have timed := h.fits.down y g c _ kind mem found companion self
    rw [low] at timed
    obtain ⟨x, record, rfl⟩ := faces_read found
    obtain ⟨q, p', parent, primary, _, _, ⟨gap, _⟩, narrow⟩ := ok.bound record (source_of_companion companion)
    rw [self] at parent
    cases h.record.symm.trans parent
    cases source.symm.trans primary
    exact pairTimed_parent_rise timed (h.adv.from_now mem) gap narrow
  refine ⟨⟨h.adv.congr calendar fun e left => read e fun same => left (.inl same), ?_, h.booked.phase _ kind, ⟨one, below⟩,
    fun y g c mem found companion self => ?_⟩, fun y g c mem found companion self => ?_⟩
  · rw [own]
    have on := h.booked.active
    generalize face r = f at kind on ⊢
    obtain ⟨level, active, source⟩ := f
    cases kind
    cases on
    rfl
  · obtain ⟨low', time⟩ := waits y g c mem found companion self
    exact ⟨low', by omega⟩
  · exact (waits y g c mem found companion self).2

/-- What step 1 leaves. -/
theorem Advance.level_faces {w : Advance} {d : DomainNo} {r : Domain} (record : w.state.domain d = some r) (kind : EdgeKind) :
    (w.level d kind).state.calendar = w.state.calendar ∧
      (∀ e, e ≠ d → faces (w.level d kind).state e = faces w.state e) ∧
      faces (w.level d kind).state d = some { face r with level := kind.level } := by
  rw [Advance.level_eq record]
  exact ⟨rfl, fun e apart => faces_setDomain apart, faces_written⟩

end Level

/-! Step 2 (R11, R12, R78) -/

section Revision
variable {w : Advance} {todo : List Entry} {d : DomainNo} {r : Domain} {t : Nat} {p : Primary}

/-- The one companion a primary may have in the calendar is the one it names. -/
theorem RecordsOk.only_child {s : State} (ok : RecordsOk s) (record : s.domain d = some r) (source : r.source = .primary p)
    {e : DomainNo} {f : Face} {b : Companion} (found : faces s e = some f) (kind : f.source = .companion b)
    (self : b.parent = d) : p.companion = some e := by
  obtain ⟨x, record', rfl⟩ := faces_read found
  obtain ⟨q, p', parent, primary, companion, _⟩ := ok.bound record' (source_of_companion kind)
  rw [self] at parent
  cases record.symm.trans parent
  cases source.symm.trans primary
  exact companion

/-- The companion of a primary and its record. -/
theorem RecordsOk.named_child {s : State} (ok : RecordsOk s) (record : s.domain d = some r) (source : r.source = .primary p)
    {c : DomainNo} (companion : p.companion = some c) :
    c ≠ d ∧ ∃ x g, s.domain c = some x ∧ x.source = .companion ⟨d, g⟩ := by
  obtain ⟨x, g, found, kind⟩ := ok.child d r p c record source companion
  refine ⟨fun same => ?_, x, g, found, kind⟩
  rw [same, record] at found
  cases found
  exact nomatch source.symm.trans kind

/-- With no ACTIVE companion there is nothing to settle. -/
theorem Risen.alone {s u : State} {p' : Primary} (ok : RecordsOk s) (record : s.domain d = some r)
    (source : r.source = .primary p) (h : Risen u todo d t p') (read : ∀ e, e ≠ d → u.domain e = s.domain e)
    (alone : ∀ c x, p.companion = some c → s.domain c = some x → x.isActive = false) : Turned u todo d .rise t := by
  refine h.turned fun y g c mem found kind self => ?_
  have inside : y.domain ≠ d := fun same => h.adv.plan.inside y mem (.inl same)
  obtain ⟨f, found', booked⟩ := h.adv.plan.booked y mem
  rw [faces_domain (read _ inside)] at found found'
  obtain ⟨x, listed, rfl⟩ := faces_read found'
  exact nomatch (alone _ x (ok.only_child record source found kind self) listed).symm.trans booked.active

/-- A settled companion, re-keyed, as step 2 leaves it. -/
theorem Risen.settle {s u v : State} {p' : Primary} (ok : RecordsOk s) (record : s.domain d = some r)
    (source : r.source = .primary p) {c : DomainNo} (companion : p.companion = some c) {x y : Domain} {g gap : Nat}
    (found : s.domain c = some x) (child : x.source = .companion ⟨d, g⟩) (h : Risen u todo d t p')
    (read : ∀ e, e ≠ d → u.domain e = s.domain e) (active : x.isActive = true)
    (level : y.level = x.level) (on : y.isActive = true) (kind : y.source = .companion ⟨d, gap⟩)
    (calendar : v.calendar = Calendar.insert ⟨t + p'.high + gap, c, .rise⟩ (Calendar.erase c u.calendar))
    (others : ∀ e, e ≠ c → faces v e = faces u e) (own : faces v c = some (face y)) : Turned v todo d .rise t := by
  obtain ⟨apart, _⟩ := ok.named_child record source companion
  obtain ⟨risen, timed⟩ := h.rekey apart ((read c apart).trans found) active child (fun z f b mem here same self => by
    have inside : z.domain ≠ d := fun same => h.adv.plan.inside z mem (.inl same)
    rw [faces_domain (read _ inside)] at here
    exact Option.some.inj ((ok.only_child record source here same self).symm.trans companion)) level on kind calendar others own
  exact risen.turned timed

/-- A primary's own revision, at its RISE (R11). -/
theorem Risen.ownRevised (ok : RecordsOk w.state) (record : w.state.domain d = some r) (source : r.source = .primary p)
    {period high : Nat} (life : r.life = .active (.revisePrimary period high))
    (h : Risen w.state todo d t { p with companion := none }) :
    Risen (w.ownRevised d r p period high t).state todo d t
      { p with period := period, high := high, phase := t % period, companion := none } := by
  have fits := (ok.valid d r record).slot _ life
  rw [source] at fits
  obtain ⟨_, _, one, below⟩ := fits
  have level : r.level = .high := congrArg Face.level (Option.some.inj ((faces_some record).symm.trans h.risen))
  refine h.revise rfl (fun e apart => faces_domain (Advance.ownRevised_other apart)) ?_ (Nat.mod_mod ..).symm ⟨one, below⟩
  rw [faces_some Advance.ownRevised_record, face]
  dsimp only
  rw [level]
  rfl

/-- A companion's record with its pending gap applied (R12). -/
def regapped (x : Domain) (parent : DomainNo) (gap : Nat) : Domain := { x with
  source := .companion ⟨parent, gap⟩
  generation := x.generation + 1
  life := .active .nothing }

/-- What a companion's pending gap leaves (R12). -/
theorem Advance.gapRevised_faces {c parent : DomainNo} {x : Domain} {period high phase gap : Nat} :
    (∀ e, e ≠ c → faces (w.gapRevised c parent x period high phase gap t).state e = faces w.state e) ∧
      faces (w.gapRevised c parent x period high phase gap t).state c =
        some (face (regapped x parent gap)) :=
  ⟨fun _ apart => faces_setDomain apart, faces_written⟩

/-- Step 2 at the RISE of a primary without an own revision. -/
theorem Risen.revision_unrevised (ok : RecordsOk w.state) (record : w.state.domain d = some r)
    (source : r.source = .primary p) (life : ∀ period high, r.life ≠ .active (.revisePrimary period high))
    (h : Risen w.state todo d t { p with companion := none })
    (timed : ChildTimed w.state todo d t { p with companion := none }) : Turned (w.revision d t).state todo d .rise t := by
  obtain ⟨unrevised, _⟩ := Advance.revision_cases (t := t) record source
  obtain ⟨alone, settles⟩ := unrevised life
  by_cases idle : ∀ c x, p.companion = some c → w.state.domain c = some x → x.isActive = false
  · rw [alone idle]
    exact h.turned timed
  · push Not at idle
    obtain ⟨c, x, companion, found, active⟩ := idle
    obtain ⟨apart, x', g, found', child⟩ := ok.named_child record source companion
    cases found.symm.trans found'
    obtain ⟨stays, revises⟩ := settles c x g companion apart found child
    by_cases pending : ∃ gap, x.life = .active (.reviseCompanion gap)
    · obtain ⟨gap, due⟩ := pending
      obtain ⟨others, own⟩ := Advance.gapRevised_faces (w := w) (t := t) (c := c) (parent := d) (x := x)
        (period := p.period) (high := p.high) (phase := p.phase) (gap := gap)
      rw [revises gap due]
      exact h.settle (y := regapped x d gap) ok record source companion found child
        (fun _ _ => rfl) (by simpa using active) rfl rfl rfl rfl others own
    · rw [stays fun gap due => pending ⟨gap, due⟩]
      exact h.turned timed

/-- Step 2 at the RISE of a primary with an own revision. -/
theorem Risen.revision_revised (ok : RecordsOk w.state) (record : w.state.domain d = some r)
    (source : r.source = .primary p) {period high : Nat} (life : r.life = .active (.revisePrimary period high))
    (h : Risen w.state todo d t { p with companion := none }) : Turned (w.revision d t).state todo d .rise t := by
  obtain ⟨_, revised⟩ := Advance.revision_cases (t := t) record source
  obtain ⟨alone, settles⟩ := revised period high life
  have risen := h.ownRevised ok record source life
  have read : ∀ e, e ≠ d → (w.ownRevised d r p period high t).state.domain e = w.state.domain e := fun _ apart =>
    Advance.ownRevised_other apart
  by_cases idle : ∀ c x, p.companion = some c → w.state.domain c = some x → x.isActive = false
  · rw [alone idle]
    exact risen.alone ok record source read idle
  · push Not at idle
    obtain ⟨c, x, companion, found, on⟩ := idle
    have active : x.isActive = true := by simpa using on
    obtain ⟨apart, x', g, found', child⟩ := ok.named_child record source companion
    cases found.symm.trans found'
    obtain ⟨stays, revises⟩ := settles c x g companion apart found child active
    have settled := fun y gap v =>
      risen.settle (v := v) (y := y) (gap := gap) ok record source companion found child read active
    by_cases pending : ∃ gap, x.life = .active (.reviseCompanion gap)
    · obtain ⟨gap, due⟩ := pending
      obtain ⟨others, own⟩ := Advance.gapRevised_faces (w := w.ownRevised d r p period high t) (t := t) (c := c) (parent := d)
        (x := x) (period := period) (high := high) (phase := t % period) (gap := gap)
      rw [revises gap due]
      exact settled (regapped x d gap) gap _ rfl rfl rfl rfl others own
    · rw [stays fun gap due => pending ⟨gap, due⟩]
      exact settled x g _ rfl active child rfl (fun _ _ => rfl) (faces_some ((read c apart).trans found))

/-- Step 2 at a RISE. -/
theorem Turns.revision (ok : RecordsOk w.state) (h : Turns w.state todo d r .rise t) :
    Turned ((w.level d .rise).revision d t).state todo d .rise t := by
  obtain ⟨calendar, read, own⟩ := Advance.level_faces h.record .rise
  have leveled : (w.level d .rise).state.domain d = some { r with level := .high } := by
    rw [Advance.level_eq h.record]
    exact State.domain_written
  have kept : RecordsOk (w.level d .rise).state := ok.level .rise
  cases source : r.source with
  | companion c =>
    rw [Advance.revision_companion leveled source]
    exact h.companion_turns ok source calendar read own
  | primary p =>
    obtain ⟨risen, timed⟩ := h.primary_rises ok source calendar read own
    by_cases pending : ∃ period high, r.life = .active (.revisePrimary period high)
    · obtain ⟨period, high, life⟩ := pending
      exact risen.revision_revised kept leveled source life
    · exact risen.revision_unrevised kept leveled source (fun period high life => pending ⟨period, high, life⟩) timed

end Revision

/-! Steps 3 to 5 (R40, R53, R57, R61, R70, R78) -/

section Rest
variable {w : Advance} {todo : List Entry} {d : DomainNo} {kind : EdgeKind} {t : Nat}

theorem Domain.countPause_face (s : State) (r : Domain) : face (s.countPause r) = face r := by
  unfold State.countPause
  split
  · rename_i free
    simp only [face, Domain.isActive, free.1]
  · rfl

/-- The count is no part of what the calendar's laws read. -/
theorem Turned.count (h : Turned w.state todo d kind t) : Turned (w.count d).state todo d kind t := by
  cases record : w.state.domain d with
  | none => rwa [Advance.count, Advance.withRecord_none record]
  | some r =>
    have put : ∀ q : Domain, face q = face r → ∀ e, faces (w.state.setDomain d (some q)) e = faces w.state e :=
      fun q same e => faces_alike record same
    have raised : ∀ (u : State) (x : Event) e, faces (u.raise x) e = faces u e := fun u x e =>
      faces_domain (State.domain_raise ..)
    rw [Advance.count, Advance.withRecord_some record]
    dsimp only
    split
    · exact h.congr rfl (put _ rfl)
    · exact h.congr rfl fun e => (raised _ _ e).trans (put { r with count := min countLimit (r.count + 1) } rfl e)
    · exact h.congr rfl fun e => (raised _ _ e).trans (put { r with count := min countLimit (r.count + 1) } rfl e)
    · have same := Domain.countPause_face w.state { r with count := min countLimit (r.count + 1) }
      exact h.congr rfl fun e => (raised _ _ e).trans (put _ same e)

/-- The record completes, parked and no longer ACTIVE. -/
theorem InAdvance.rest {s : State} (h : InAdvance (also d nobody) s todo t)
    (still : ∀ f, faces s d = some f → f.active = false ∧ f.level = f.park) : InAdvance nobody s todo t :=
  ⟨h.sorted, h.after, h.now, h.fresh, h.plan.rest still⟩

theorem edgeAfter_domain {s : State} {r : Domain} : (s.edgeAfter d r kind t).domain = d := by
  unfold State.edgeAfter
  split
  · split <;> rfl
  · split
    · split <;> rfl
    · rfl

/-- Step 5. -/
theorem Turned.finish (ok : RecordsOk w.state) (h : Turned w.state todo d kind t) :
    InAdvance nobody (w.finish d kind t).state todo t := by
  cases record : w.state.domain d with
  | none =>
    rw [Advance.finish, Advance.withRecord_none record]
    exact h.adv.rest fun f found => nomatch (faces_none record).symm.trans found
  | some r =>
    have found := faces_some record
    have level : r.level = kind.level := h.level _ found
    have next := ok.edgeAfter_next (kind := kind) (t := t) record
    have onward : InAdvance nobody (w.state.insertEntry (w.state.edgeAfter d r kind t)) todo t := by
      have later := ok.edgeAfter_later (kind := kind) (t := t) record
      have own : (w.state.edgeAfter d r kind t).domain = d := edgeAfter_domain
      have booked := h.booked _ found
      have fits := h.fits _ found
      rw [← next] at booked fits
      exact h.adv.insert own id later rfl (fun _ => rfl) found booked fits
    rw [Advance.finish, Advance.withRecord_some record]
    dsimp only
    split
    · rename_i park
      split
      · rename_i reason _
        refine InAdvance.rest (h.adv.congr rfl fun e left => faces_setDomain fun same => left (.inl same)) fun f own => ?_
        cases faces_written.symm.trans own
        exact ⟨rfl, (level.trans park).trans face_park.symm⟩
      · refine InAdvance.rest (h.adv.congr (State.freeDomain_calendar w.state d) fun e left =>
          faces_freeDomain record fun same => left (.inl same)) fun f own => ?_
        exact nomatch (faces_none State.freeDomain_self).symm.trans own
      all_goals exact onward
    · exact onward

end Rest

/-! Whole advances (R70, R77) -/

section Group
variable {w : Advance} {todo : List Entry} {t : Nat} {x : Entry}

theorem InAdvance.edge (ok : RecordsOk w.state) (h : InAdvance nobody w.state (x :: todo) t) :
    InAdvance nobody (w.edge t x).state todo t := by
  obtain ⟨r, turns⟩ := h.turns
  unfold Advance.edge
  split
  · rename_i kind
    rw [kind] at turns
    exact Turned.finish (ok.level _).revision.count (turns.revision ok).count
  · rename_i kind
    rw [kind] at turns
    obtain ⟨calendar, read, own⟩ := Advance.level_faces turns.record .fall
    refine Turned.finish (ok.level _) ?_
    cases source : r.source with
    | primary p => exact turns.primary_falls ok source calendar read own
    | companion c => exact turns.companion_turns ok source calendar read own

theorem InAdvance.edges (ok : RecordsOk w.state) (h : InAdvance nobody w.state todo t) :
    InAdvance nobody (todo.foldl (Advance.edge t) w).state [] t := by
  induction todo generalizing w with
  | nil => exact h
  | cons x xs ih => exact ih (ok.edge x) (h.edge ok)

/-- The head group is taken out of the calendar. -/
theorem CalendarExact.begins {s : State} (h : CalendarExact s) {rest : List Entry} (head : s.calendar = x :: rest) :
    InAdvance nobody { s with calendar := s.calendar.filter fun e => !decide (e.time = x.time) }
      (s.calendar.filter fun e => decide (e.time = x.time)) x.time := by
  have first : x ∈ s.calendar := head ▸ List.mem_cons_self
  have weak : SortedAfter s.time s.calendar := ⟨h.sorted.imp fun order => Entry.before_asymm order, h.ahead⟩
  have later : SortedAfter x.time (s.calendar.filter fun e => !decide (e.time = x.time)) := by
    rw [head] at weak ⊢
    exact weak.tail
  have entries : ∀ y, Listed (s.calendar.filter fun e => decide (e.time = x.time))
      { s with calendar := s.calendar.filter fun e => !decide (e.time = x.time) } y ↔ y ∈ s.calendar := fun y => by
    simp only [Listed, List.mem_filter, decide_eq_true_eq, Bool.not_eq_true', decide_eq_false_iff_not]
    tauto
  refine ⟨h.sorted.filter _, later.ahead, fun y mem => by simpa using (List.mem_filter.mp mem).2, ?_, ?_⟩
  · refine (h.sorted.filter _).imp fun {y z} order same => ?_
    subst same
    rw [Entry.before_iff] at order
    omega
  · exact (h.scheduled.later (Nat.le_of_lt (h.ahead x first))).congr entries fun _ _ => rfl

theorem CalendarExact.advanced {s : State} (ok : RecordsOk s) (h : CalendarExact s) {rest : List Entry}
    (head : s.calendar = x :: rest) (range : x.time < 2 ^ 48) :
    CalendarExact { (s.processGroup x.time).state with time := x.time } := by
  have kept : RecordsOk (s.processGroup x.time).state := ok.processGroup
  have start : RecordsOk { s with calendar := s.calendar.filter fun e => !decide (e.time = x.time) } := ok.read fun _ => rfl
  have done : InAdvance nobody (s.processGroup x.time).state [] x.time := InAdvance.edges start (h.begins head)
  generalize (s.processGroup x.time).state = u at kept done ⊢
  have plan : Scheduled nobody (fun y => y ∈ u.calendar) (faces u) x.time :=
    done.plan.congr (fun y => by simp only [Listed, List.not_mem_nil, false_or]) fun _ _ => rfl
  have timed : RecordsOk { u with time := x.time } := kept.read fun _ => rfl
  exact Scheduled.exact timed plan done.sorted done.after range

end Group
end Sys2Proof.Safety
end

section
/-! SUPPORT. First edges and the rewound calendar agree with the records (R6, R10, R14, R72): the statement O59. -/

namespace Sys2Proof.Safety

open Sys2Proof.Machine

/-! First edges -/

theorem firstAtOrAfter_eq {bound residue period u : Nat} (from_ : bound ≤ u) (below : u < bound + period)
    (same : u % period = residue % period) : firstAtOrAfter bound residue period = u := by
  have positive : 0 < period := by omega
  have least := le_firstAtOrAfter bound residue period
  have most := firstAtOrAfter_least bound residue positive from_ same
  have congruent : firstAtOrAfter bound residue period ≡ u [MOD period] :=
    (firstAtOrAfter_mod bound residue positive).trans same.symm
  exact congruent.eq_of_abs_lt (by rw [abs_lt]; omega)

theorem IsEarliest.lt {bound residue period time : Nat} (h : IsEarliest bound residue period time) (positive : 0 < period) :
    time < bound + period := by
  rw [h.unique (firstAtOrAfter_isEarliest bound residue positive)]
  exact firstAtOrAfter_lt bound residue positive

/-- The first edge of a companion whose parent is LOW: a gap after the parent's last fall, or its next one (R10). -/
theorem pairTimed_first {p : Primary} {g now u : Nat} (wave : p.high < p.period) (later : now < u)
    (near : u ≤ now + p.period) (phase : u % p.period = p.phase % p.period) :
    pairTimed p g .low .low u (firstAtOrAfter (now + g) (p.phase + p.high + g) p.period) := by
  have residue : (u + p.high + g) % p.period = (p.phase + p.high + g) % p.period :=
    Nat.ModEq.add_right g (Nat.ModEq.add_right p.high phase)
  by_cases fallen : now + p.period ≤ u + p.high
  · have reduced : (u + p.high + g - p.period) % p.period = (p.phase + p.high + g) % p.period := by
      rw [← residue]
      exact (Nat.mod_eq_sub_mod (by omega)).symm
    rw [firstAtOrAfter_eq (u := u + p.high + g - p.period) (by omega) (by omega) reduced]
    dsimp only [pairTimed]
    omega
  · rw [firstAtOrAfter_eq (u := u + p.high + g) (by omega) (by omega) residue]
    exact .inl rfl

section First
variable {s : State} {d : DomainNo} {r : Domain}

theorem CalendarExact.nextEdge (h : CalendarExact s) {x : Entry} (mem : x ∈ s.calendar) : s.nextEdge x.domain = some x := by
  cases next : s.nextEdge x.domain with
  | none =>
    have missing := List.find?_eq_none.mp next x mem
    simp at missing
  | some y =>
    have same : y.domain = x.domain := by simpa using List.find?_some next
    rw [h.unique y (List.mem_of_find?_eq_some next) x mem same]

/-- A record that is not ACTIVE is aside already. -/
theorem CalendarExact.aside (h : CalendarExact s) (record : s.domain d = some r) (still : r.isActive = false) :
    Scheduled (also d nobody) (fun x => x ∈ s.calendar) (faces s) s.time :=
  h.scheduled.aside fun _ mem => h.scheduled.unlisted (faces_some record) still mem

/-- The first edge of a primary (R6). -/
theorem Primary.firstEdge_booked (p : Primary) {now : Nat} (positive : 0 < p.period) {f : Face} (active : f.active = true)
    (level : f.level = p.park) (source : f.source = .primary { p with companion := none }) :
    Booked now (p.firstEdge d now) f := by
  cases park : p.park with
  | low =>
    have form : p.firstEdge d now = ⟨firstAtOrAfter (now + 1) p.phase p.period, d, .rise⟩ := by
      simp only [Primary.firstEdge, park]
    rw [form]
    refine ⟨active, iff_of_true rfl (level.trans park), fun q same => ?_, fun q same => ?_⟩ <;> cases source.symm.trans same
    · have := firstAtOrAfter_lt (now + 1) p.phase positive
      dsimp only
      omega
    · exact firstAtOrAfter_mod _ _ positive
  | high =>
    have form : p.firstEdge d now = ⟨firstAtOrAfter (now + 1) (p.phase + p.high) p.period, d, .fall⟩ := by
      simp only [Primary.firstEdge, park]
    rw [form]
    refine ⟨active, iff_of_false nofun fun low => (nomatch low.symm.trans (level.trans park)), fun q same => ?_,
      fun q same => ?_⟩ <;> cases source.symm.trans same
    · have := firstAtOrAfter_lt (now + 1) (p.phase + p.high) positive
      dsimp only
      omega
    · exact firstAtOrAfter_mod _ _ positive

/-- A primary that is not ACTIVE has no ACTIVE companion. -/
theorem RecordsOk.no_child (ok : RecordsOk s) {out : DomainNo → Prop} {listed : Entry → Prop}
    (plan : Scheduled out listed (faces s) s.time) (record : s.domain d = some r) (still : r.isActive = false) {y : Entry}
    {g : Face} {c : Companion} (mem : listed y) (found : faces s y.domain = some g) (source : g.source = .companion c) :
    c.parent ≠ d := by
  rintro rfl
  obtain ⟨f, found', booked⟩ := plan.booked y mem
  cases found.symm.trans found'
  obtain ⟨x, record', rfl⟩ := faces_read found
  obtain ⟨active, _⟩ := ok.coupled _ x c r record' (source_of_companion source) booked.active record
  exact nomatch still.symm.trans active

/-- The first edge of a companion fits its parent's entry (R10). -/
theorem CalendarExact.firstEdge_timed (ok : RecordsOk s) (h : CalendarExact s) {c : Companion}
    (source : r.source = .companion c)
    {y : Entry} {q : Domain} {p : Primary} (mem : y ∈ s.calendar) (own : y.domain = c.parent)
    (parent : s.domain c.parent = some q) (kind : q.source = .primary p) :
    (s.firstEdge d r).kind = .rise ∧ pairTimed p c.gap q.level .low y.time (s.firstEdge d r).time := by
  obtain ⟨_, _, _, below, _⟩ := ok.wave parent kind
  have record' : s.domain y.domain = some q := own ▸ parent
  have phase := h.phase y mem q p record' kind
  obtain ⟨q', found, _, shape⟩ := h.owned y mem
  cases record'.symm.trans found
  have form : s.firstEdge d r = c.firstEdge p d (s.startBound c q) := by
    simp only [State.firstEdge, source, State.parentOf_eq parent kind]
  rw [form]
  refine ⟨rfl, ?_⟩
  cases level : q.level with
  | low =>
    have bound : s.startBound c q = s.time := by simp only [State.startBound, level]
    rw [shape.mpr level] at phase
    rw [bound]
    exact pairTimed_first below (h.ahead y mem) (h.near y mem q p record' kind) phase
  | high =>
    have bound : s.startBound c q = y.time := by simp only [State.startBound, level, ← own, h.nextEdge mem]
    have falls : y.kind = .fall := by
      cases kind' : y.kind with
      | fall => rfl
      | rise => exact nomatch level.symm.trans (shape.mp kind')
    rw [falls] at phase
    rw [bound]
    exact firstAtOrAfter_eq (le_refl _) (by omega) (Nat.ModEq.add_right c.gap phase)

theorem firstEdge_domain : (s.firstEdge d r).domain = d := by
  unfold State.firstEdge Primary.firstEdge Companion.firstEdge
  split
  · split <;> rfl
  · split <;> rfl

theorem CalendarExact.activated (ok : RecordsOk s) (h : CalendarExact s) {count : Nat} (record : s.domain d = some r)
    (still : r.isActive = false) (ready : s.parentIdle r = false) (counted : count = 0 ∨ count = r.count) :
    CalendarExact (s.activate d { r with count := count } (s.firstEdge d r)) := by
  have kept := ok.activate (edge := s.firstEdge d r) record still ready counted
  have aside := h.aside record still
  have later := ok.firstEdge_later h.ahead record
  have own : (s.firstEdge d r).domain = d := firstEdge_domain
  have parked : r.level = r.park := h.parked d r record still
  have entries : ∀ y, y ∈ (s.activate d { r with count := count } (s.firstEdge d r)).calendar ↔
      y = s.firstEdge d r ∨ y ∈ s.calendar := fun y => Calendar.mem_insert
  have look : ∀ e, e ≠ d → faces (s.activate d { r with count := count } (s.firstEdge d r)) e = faces s e :=
    fun e apart => faces_setDomain apart
  have written : faces (s.activate d { r with count := count } (s.firstEdge d r)) d =
      some ⟨r.level, true, bare r.source⟩ := faces_written (q := { r with count := count, life := .active .nothing })
  have sorted : (s.activate d { r with count := count } (s.firstEdge d r)).calendar.Pairwise fun x y => x.before y = true :=
    Calendar.strict_insert h.sorted fun y mem same => aside.inside y mem (.inl (same.trans own))
  have ahead : ∀ y ∈ (s.activate d { r with count := count } (s.firstEdge d r)).calendar, s.time < y.time := fun y mem => by
    rcases (entries y).mp mem with rfl | old
    · exact later
    · exact h.ahead y old
  have time : (s.activate d { r with count := count } (s.firstEdge d r)).time = s.time := rfl
  generalize s.activate d { r with count := count } (s.firstEdge d r) = v at *
  have plan : Scheduled nobody (fun y => y ∈ v.calendar) (faces v) s.time := by
    have read : Scheduled (also d nobody) (fun y => y ∈ s.calendar) (faces v) s.time :=
      aside.congr (fun _ => Iff.rfl) fun e left => look e fun same => left (.inl same)
    cases source : r.source with
    | primary p =>
      obtain ⟨least, _⟩ := ok.wave record source
      have form : s.firstEdge d r = p.firstEdge d s.time := by simp only [State.firstEdge, source]
      have level : r.level = p.park := by rw [parked, Domain.park, source]
      refine read.book own id entries written ?_ ⟨fun y g c q same => ?_, fun y g c q same mem found companion self => ?_⟩
      · rw [form]
        exact Primary.firstEdge_booked p (by omega) rfl level (face_primary source)
      · exact nomatch same.symm.trans (face_primary source)
      · rw [look _ fun same => aside.inside y mem (.inl same)] at found
        exact absurd self (ok.no_child aside record still mem found companion)
    | companion c =>
      have form := face_companion source
      have low : r.level = .low := by rw [parked, Domain.park, source]
      obtain ⟨q, p, parent, primary, _⟩ := ok.bound record source
      have apart : c.parent ≠ d := fun same => by
        rw [same, record] at parent
        cases parent
        exact nomatch source.symm.trans primary
      have rises : (s.firstEdge d r).kind = .rise := by
        obtain ⟨active, _⟩ := State.parentIdle_active ready source parent
        obtain ⟨y, mem, named⟩ := h.active c.parent q parent active
        exact (h.firstEdge_timed ok source mem named parent primary).1
      refine read.book own id entries written ⟨rfl, iff_of_true rises low, fun q same => ?_, fun q same => ?_⟩
        ⟨fun y g b p' same mem named found kind => ?_, fun y g b q same => ?_⟩
      · exact nomatch same.symm.trans form
      · exact nomatch same.symm.trans form
      · cases form.symm.trans same
        rw [look _ apart, faces_some parent] at found
        cases found
        cases (face_primary primary).symm.trans kind
        dsimp only
        rw [low]
        exact (h.firstEdge_timed ok source mem named parent primary).2
      · exact nomatch same.symm.trans form
  rw [← time] at plan ahead
  exact plan.exact kept sorted ahead (time.symm ▸ h.time)

end First

/-! Requests (R26, R37, R46 to R58) -/

section Requests
variable {s v : State} {d : DomainNo} {r : Domain}

/-- What the calendar's laws do not read may change. -/
theorem CalendarExact.alike (ok : RecordsOk v) (h : CalendarExact s) (calendar : v.calendar = s.calendar)
    (time : v.time = s.time) (read : ∀ e, faces v e = faces s e) : CalendarExact v := by
  have look : faces v = faces s := funext read
  refine Scheduled.exact ok ?_ ?_ ?_ ?_
  · rw [look, calendar, time]
    exact h.scheduled
  · rw [calendar]
    exact h.sorted
  · rw [calendar, time]
    exact h.ahead
  · rw [time]
    exact h.time

/-- A record that is not ACTIVE may be written, parked and not ACTIVE. -/
theorem CalendarExact.parks (ok : RecordsOk v) (h : CalendarExact s)
    (unlisted : ∀ x ∈ s.calendar, x.domain ≠ d) (calendar : v.calendar = s.calendar) (time : v.time = s.time)
    (read : ∀ e, e ≠ d → faces v e = faces s e) (still : ∀ f, faces v d = some f → f.active = false ∧ f.level = f.park) :
    CalendarExact v := by
  have aside := h.scheduled.aside unlisted
  have plan : Scheduled nobody (fun x => x ∈ s.calendar) (faces v) s.time :=
    (aside.congr (fun _ => Iff.rfl) fun e left => read e fun same => left (.inl same)).rest still
  refine Scheduled.exact ok ?_ ?_ ?_ ?_
  · rw [calendar, time]
    exact plan
  · rw [calendar]
    exact h.sorted
  · rw [calendar, time]
    exact h.ahead
  · rw [time]
    exact h.time

/-- A change pends on an ACTIVE record. -/
theorem faces_setPending (record : s.domain d = some r) (active : r.isActive = true) (p : Pending) (e : DomainNo) :
    faces (s.setPending d r p) e = faces s e := by
  refine faces_alike record ?_
  rw [face, face, active]
  rfl

theorem face_applied (q : ReviseParams) : (face (q.applied r)).level = r.level ∧ (face (q.applied r)).active = r.isActive ∧
    (face (q.applied r)).park = r.park := by
  rw [face_park]
  unfold ReviseParams.applied Domain.revisePrimary Domain.reviseCompanion Domain.park face Domain.isActive
  cases r.source <;> simp only [and_self]

theorem RecordMove.keeps_exact {s v : State} (ok : RecordsOk s) (h : CalendarExact s) (m : RecordMove s v) :
    CalendarExact v := by
  have kept : RecordsOk v := RecordMove.keeps ok m
  cases m with
  | stand t same => exact h.alike kept same.calendar same.time fun e => faces_domain (same.domain e)
  | alike d r q record label source level count life stop =>
    refine h.alike kept rfl rfl fun e => faces_alike record ?_
    simp only [face, Domain.isActive, source, level, life]
  | activate d r count record still ready counted => exact h.activated ok record still ready counted
  | pend d r p record active may => exact h.alike kept rfl rfl (faces_setPending record active p)
  | reviseLater d r q record active may => exact h.alike kept rfl rfl (faces_setPending record active _)
  | reviseNow d r q record still may =>
    refine h.parks (d := d) kept (fun x mem => (h.aside record still).inside x mem ∘ .inl) rfl rfl
      (fun e apart => faces_setDomain apart) fun f found => ?_
    cases faces_written.symm.trans found
    obtain ⟨level, active, park⟩ := face_applied (r := r) q
    rw [level, active, park]
    exact ⟨still, h.parked d r record still⟩
  | free d r record still alone =>
    refine h.parks (d := d) kept (fun x mem => (h.aside record still).inside x mem ∘ .inl) (State.freeDomain_calendar s d)
      (State.freeDomain_time s d) (fun e apart => faces_freeDomain record apart) fun f found => ?_
    exact nomatch (faces_none State.freeDomain_self).symm.trans found
  | create d q who free range unique check =>
    have stands : (s.allocate d q who).calendar = s.calendar ∧ (s.allocate d q who).time = s.time := by
      unfold State.allocate
      split <;> exact ⟨rfl, rfl⟩
    obtain ⟨calendar, time⟩ := stands
    refine h.parks (d := d) kept (fun x mem => h.scheduled.unlisted_free (faces_none free) mem) calendar time
      (fun e apart => faces_allocate apart) fun f found => ?_
    cases (faces_some State.allocate_self).symm.trans found
    rw [face_park]
    refine ⟨rfl, ?_⟩
    unfold CreateParams.record Domain.park face
    cases q.source <;> rfl

end Requests

/-! REWIND (R14, R72, R108) -/

theorem State.rewound_parked {s : State} {d : DomainNo} {r : Domain} (found : s.rewindRecords.domain d = some r) :
    r.level = r.park := by
  rw [State.rewindRecords, State.domain_rebuildCalendar, State.resetLevels, State.domain_mapDomains] at found
  obtain ⟨x, _, rfl⟩ := Option.map_eq_some_iff.mp found
  rfl

theorem Booked.at_park {u : State} {x : Entry} {r : Domain} (ok : RecordsOk u) (record : u.domain x.domain = some r)
    (active : r.isActive = true) (level : r.level = r.park) (edge : x = u.rewindEdge x.domain r) : Booked 0 x (face r) := by
  cases source : r.source with
  | primary p =>
    obtain ⟨least, _⟩ := ok.wave record source
    have form : x = p.firstEdge x.domain 0 := edge.trans (by simp only [State.rewindEdge, source])
    rw [form]
    exact Primary.firstEdge_booked p (by omega) active (level.trans (by rw [Domain.park, source])) (face_primary source)
  | companion c =>
    obtain ⟨q, p, parent, primary, _, ⟨least, _⟩, _⟩ := ok.bound record source
    have rises : x.kind = .rise := by
      rw [edge]
      exact (State.rewindEdge_companion source parent primary (by omega)).1
    refine ⟨active, iff_of_true rises (level.trans (by rw [Domain.park, source])), fun q same => ?_, fun q same => ?_⟩
    · exact nomatch same.symm.trans (face_companion source)
    · exact nomatch same.symm.trans (face_companion source)

/-- A rewound pair's entries (R14). -/
theorem RecordsOk.rewound_timed {u : State} (ok : RecordsOk u) {x y : Entry} {r q : Domain} {c : Companion} {p : Primary}
    (source : r.source = .companion c) (edge : x = u.rewindEdge x.domain r)
    (parent : u.domain c.parent = some q) (primary : q.source = .primary p)
    (edge' : y = u.rewindEdge y.domain q) (level : r.level = .low) (level' : q.level = p.park) :
    pairTimed p c.gap q.level r.level y.time x.time := by
  obtain ⟨least, _, _, below, _⟩ := ok.wave parent primary
  have positive : 0 < p.period := by omega
  obtain ⟨_, low, high⟩ := State.rewindEdge_companion (d := x.domain) source parent primary positive
  obtain ⟨low', high'⟩ := State.rewindEdge_primary (s := u) (d := y.domain) primary positive
  rw [← edge] at low high
  rw [← edge'] at low' high'
  rw [level, level']
  cases park : p.park with
  | low =>
    obtain ⟨_, earliest⟩ := low' park
    have first := (low park).unique (firstAtOrAfter_isEarliest c.gap (p.phase + p.high + c.gap) positive)
    have near := IsEarliest.lt earliest positive
    obtain ⟨after, phase, _⟩ := earliest
    have timed := pairTimed_first (now := 0) (g := c.gap) below after (by omega) phase
    rw [Nat.zero_add, ← first] at timed
    exact timed
  | high =>
    obtain ⟨_, earliest⟩ := high' park
    exact high park y.time earliest

theorem RecordsOk.rewound_exact {s : State} (ok : RecordsOk s) : CalendarExact s.rewindRecords := by
  have kept : RecordsOk s.rewindRecords := ok.rewound
  have time : s.rewindRecords.time = 0 := by rw [State.rewindRecords_eq]
  have ahead := ok.rewound_ahead
  have sorted : s.rewindRecords.calendar.Pairwise fun x y => x.before y = true := State.sorted_rebuildCalendar _
  have parked : ∀ d r, s.rewindRecords.domain d = some r → r.level = r.park := fun _ _ => State.rewound_parked
  have entry : ∀ {x}, x ∈ s.rewindRecords.calendar ↔ ∃ r, s.rewindRecords.domain x.domain = some r ∧ r.isActive = true ∧
    x = s.rewindRecords.rewindEdge x.domain r := State.mem_rewound (fun _ => rfl) rfl
  have unique : ∀ x y, x ∈ s.rewindRecords.calendar → y ∈ s.rewindRecords.calendar → x.domain = y.domain → x = y :=
    fun _ _ => State.rewound_unique (fun _ => rfl) rfl
  generalize s.rewindRecords = u at *
  refine Scheduled.exact kept ⟨unique, fun _ _ => id, fun d f _ found active => ?_, fun x mem => ?_,
    fun d f _ found _ => ?_, fun x y f g c p mem mem' found source named found' kind => ?_⟩ sorted ahead.ahead ahead.time
  · obtain ⟨r, record, rfl⟩ := faces_read found
    have own := u.rewindEdge_domain d r
    exact ⟨u.rewindEdge d r, entry.mpr (by rw [own]; exact ⟨r, record, active, rfl⟩), own⟩
  · obtain ⟨r, record, active, edge⟩ := entry.mp mem
    rw [time]
    exact ⟨face r, faces_some record, .at_park kept record active (parked _ r record) edge⟩
  · obtain ⟨r, record, rfl⟩ := faces_read found
    exact (parked d r record).trans face_park.symm
  · obtain ⟨r, record, _, edge⟩ := entry.mp mem
    obtain ⟨q, parent, _, edge'⟩ := entry.mp mem'
    rw [named] at parent
    cases (faces_some record).symm.trans found
    cases (faces_some parent).symm.trans found'
    obtain ⟨p', primary, rfl⟩ := source_of_primary kind
    have companion := source_of_companion source
    have timed := kept.rewound_timed companion edge parent primary edge'
      ((parked _ r record).trans (by rw [Domain.park, companion])) ((parked _ q parent).trans (by rw [Domain.park, primary]))
    exact timed

/-! The statement O59 -/

theorem TableMove.keeps_exact {s t : State} (ok : RecordsOk s) (h : CalendarExact s) (m : TableMove s t) :
    CalendarExact t := by
  have kept : RecordsOk t := TableMove.keeps_records ok m
  cases m with
  | stand => exact h
  | reset t records calendar time => exact calendarExact_free records calendar (time.symm ▸ Nat.two_pow_pos 48)
  | expel b =>
    refine h.alike kept (State.mapDomains_calendar s _) (State.mapDomains_time s _) fun e => ?_
    rw [faces, State.domain_mapDomains, Option.map_map]
    rfl
  | rewind => exact ok.rewound_exact
  | advance x rest head range => exact h.advanced ok head range
  | take k who params => exact RecordMove.keeps_exact ok h (k.take_moves who params)

/-- Settles O59: with the Domain Table's laws, every move keeps the calendar's. -/
theorem everyStepKeepsTheCalendarExact : Obligations.EveryStepKeepsTheCalendarExact := fun _ _ ok h taken =>
  (step_keeps_table (P := fun s => RecordsOk s ∧ CalendarExact s)
    (fun _ _ ⟨ok, h⟩ same => ⟨ok.table same, h.alike (ok.table same) same.calendar same.time fun e =>
      faces_domain (same.domain e)⟩)
    (fun _ _ ⟨ok, h⟩ m => ⟨TableMove.keeps_records ok m, TableMove.keeps_exact ok h m⟩) ⟨ok, h⟩ taken).2

end Sys2Proof.Safety
end

section
/-! SUPPORT. Outside service nothing happens but the lines and the resets: the statement O56. -/

namespace Sys2Proof.Machine

open Sys2Proof.Safety

/-! What only the resets and the end of initialisation change: the phase -/

section Phase
variable {s : State} {b : BoardNo}

theorem State.probeMissing_phase (t : Training) : (s.probeMissing b t).phase = s.phase := State.nextProbe_phase ..

theorem State.probeAnswered_phase (t : Training) (n : Nat) (c : Capacity) : (s.probeAnswered b t n c).phase = s.phase := by
  unfold State.probeAnswered
  split
  · rfl
  · exact State.nextProbe_phase ..

theorem State.awaitReception_phase (instant : Nat) : (s.awaitReception b instant).phase = s.phase :=
  State.awaitReception_induction (P := fun u => u.phase = s.phase)
    (fun _ t same _ _ => (State.probeMissing_phase t).trans same) rfl

theorem State.badReception_phase (kind : FaultKind) : (s.badReception b kind).phase = s.phase := by
  have waited := State.awaitReception_phase (s := s) (b := b) s.clock
  unfold State.badReception
  dsimp only
  split
  · exact (State.faultLinked_phase ..).trans waited
  · exact (State.probeMissing_phase _).trans waited
  · exact waited
  · exact waited

theorem State.receiveEcho_phase (number code : Byte) (instant : Nat) :
    (s.receiveEcho b number code instant).phase = s.phase := by
  have waited := State.awaitReception_phase (s := s) (b := b) instant
  unfold State.receiveEcho
  dsimp only
  split
  · split
    · split
      · exact (State.probeAnswered_phase _ _ _).trans waited
      · exact (State.probeMissing_phase _).trans waited
    · exact (State.probeMissing_phase _).trans waited
  · exact waited
  · exact waited
  · exact waited

theorem State.faultBoard_phase (kind : FaultKind) : (s.faultBoard b kind).phase = s.phase := by
  unfold State.faultBoard
  split
  · exact State.faultLinked_phase ..
  all_goals rfl

theorem State.grant_phase {g : Grant} {body : Owner → List Byte → State → Taken}
    (h : ∀ u : State, (body g.requester.owner g.params u).state.phase = u.phase) : (s.grant g body).phase = s.phase := by
  unfold State.grant
  dsimp only
  rw [State.queueNotices_phase, State.putReply_phase, h, State.moveArbiter_phase]

end Phase

end Sys2Proof.Machine

namespace Sys2Proof.Safety

open Sys2Proof.Machine

/-! The quiet of reset -/

section Events
variable {s : State} (b : BoardNo)

theorem QuietInReset.down (h : QuietInReset s) : (s.board b).link = .down := (h.boards b).1

theorem QuietInReset.untrained (h : QuietInReset s) (t : Training) : (s.board b).link ≠ .training t := by
  rw [h.down]
  nofun

theorem QuietInReset.unlinked (h : QuietInReset s) : (s.board b).link ≠ .linked := by
  rw [h.down]
  nofun

theorem QuietInReset.ack (h : QuietInReset s) : (s.board b).ackTimer = none := by
  obtain ⟨_, _, _, _, ack, _⟩ := h.boards b
  exact ack

theorem QuietInReset.hold (h : QuietInReset s) : (s.board b).holdTimer = none := by
  obtain ⟨_, _, _, _, _, hold⟩ := h.boards b
  exact hold

theorem QuietInReset.empty (h : QuietInReset s) (t : Tag) : (s.board b).slot t = .empty := by
  obtain ⟨_, _, zero, one, _⟩ := h.boards b
  match t with
  | 0 => exact zero
  | 1 => exact one

/-- In the quiet of reset the arbiter has nothing to grant. -/
theorem QuietInReset.nextGrant (h : QuietInReset s) : s.nextGrant = none := by
  have waits : s.nextBoard = none := by
    rw [State.nextBoard_none]
    intro b
    cases tag : (s.board b).waitingTag with
    | none => rfl
    | some t =>
      obtain ⟨kind, params, slot⟩ := Board.waitingTag_slot tag
      exact nomatch slot.symm.trans (h.empty b t)
  simp only [State.nextGrant, h.slot, waits]

end Events

/-- The events of a link that is up, of a timer that runs, or of a reply under way. -/
inductive LinkEvent (b : BoardNo) : Instr → Prop
  | echo (number code : Byte) (arrival : Nat) : LinkEvent b (.echo b number code arrival)
  | probeAnswerTimeout : LinkEvent b (.probeAnswerTimeout b)
  | frameCheck : LinkEvent b (.frameCheck b)
  | badFrame : LinkEvent b (.badFrame b)
  | error : LinkEvent b (.error b)
  | ack (seq16 : BitVec 16) : LinkEvent b (.ack b seq16)
  | ackTimeout : LinkEvent b (.ackTimeout b)
  | hold (cause : Byte) : LinkEvent b (.hold b cause)
  | release (cause : Byte) : LinkEvent b (.release b cause)
  | holdTimeout : LinkEvent b (.holdTimeout b)
  | stopFrame (code : Byte) : LinkEvent b (.stopFrame b code)
  | request (tag : Tag) (kind : BitVec 7) (params : List Byte) : LinkEvent b (.request b tag kind params)
  | replySent (tag : Tag) : LinkEvent b (.replySent b tag)

section Links
variable {s : State} {b : BoardNo} {c : Instr}

/-- No event of a link happens in the quiet of reset (R114, R121). -/
theorem QuietInReset.linkEvent (h : QuietInReset s) (event : LinkEvent b c) : exec c s = .next s := by
  obtain ⟨echo, probe, check, linked, waits, ack, hold⟩ := eventsTheStateRulesOutChangeNothing.1 s b
  have untrained := h.untrained b
  obtain ⟨frame, bad⟩ := check (.inl (h.down b))
  obtain ⟨error, acks, requests⟩ := linked (h.unlinked b)
  have waits := waits (.inl (h.down b))
  cases event with
  | echo number code arrival => exact echo number code arrival untrained
  | probeAnswerTimeout => exact probe untrained
  | frameCheck => exact frame
  | badFrame => exact bad
  | error => exact error
  | ack seq16 => exact acks seq16
  | ackTimeout => exact ack (h.ack b)
  | hold cause =>
    obtain ⟨held, _⟩ := waits cause
    exact held
  | release cause =>
    obtain ⟨_, released, _⟩ := waits cause
    exact released
  | holdTimeout => exact hold (h.hold b)
  | stopFrame code =>
    obtain ⟨_, _, stopped⟩ := waits code
    exact stopped
  | request tag kind params => exact requests tag kind params (.inr untrained)
  | replySent tag =>
    have slot := h.empty b tag
    simp only [exec, execReplySent, slot]

/-- No event of a link ends a phase. -/
theorem LinkEvent.phase (event : LinkEvent b c) (s : State) : ∃ t, exec c s = .next t ∧ t.phase = s.phase := by
  cases event with
  | echo number code arrival =>
    refine ⟨_, rfl, ?_⟩
    split
    · exact State.receiveEcho_phase ..
    all_goals rfl
  | probeAnswerTimeout =>
    refine ⟨_, rfl, ?_⟩
    split
    · exact State.probeMissing_phase ..
    all_goals rfl
  | frameCheck => exact ⟨_, rfl, State.badReception_phase _⟩
  | badFrame => exact ⟨_, rfl, State.badReception_phase _⟩
  | error => exact ⟨_, rfl, State.faultBoard_phase _⟩
  | ack seq16 =>
    refine ⟨_, rfl, ?_⟩
    split
    · split
      · exact State.completeDraining_phase _
      · exact State.faultLinked_phase ..
    all_goals rfl
  | ackTimeout =>
    refine ⟨_, rfl, ?_⟩
    split
    · exact State.faultBoard_phase _
    · rfl
  | hold cause =>
    refine ⟨_, rfl, ?_⟩
    split
    · rw [State.enqueue_phase]
      split <;> rfl
    · rfl
  | release cause =>
    refine ⟨_, rfl, ?_⟩
    split
    · rw [State.enqueue_phase]
      split <;> rfl
    · rfl
  | holdTimeout =>
    refine ⟨_, rfl, ?_⟩
    split
    · split
      · exact State.faultLinked_phase ..
      · rfl
    · rfl
  | stopFrame code =>
    refine ⟨_, rfl, ?_⟩
    split
    · rw [State.enqueue_phase]
      split
      · exact State.enterDraining_phase ..
      · rfl
    · rfl
  | request tag kind params =>
    refine ⟨_, rfl, ?_⟩
    split
    · split
      · split <;> rfl
      · rfl
    · exact State.badReception_phase _
  | replySent tag =>
    refine ⟨_, rfl, ?_⟩
    split
    · split <;> rfl
    all_goals rfl

end Links

/-! Commands, one group after another -/

/-- A command completes, and keeps the quiet of reset. -/
def KeepsQuiet (r : Result) : Prop := ∃ t, r = .next t ∧ Quiet t

section Groups
variable {s : State} {b : BoardNo} {c : Instr} {r : Result}

/-- In service the phase stays; outside service the command does nothing. -/
theorem KeepsQuiet.stands (h : Quiet s) (phase : ∃ t, r = .next t ∧ t.phase = s.phase)
    (stands : QuietInReset s → r = .next s) : KeepsQuiet r := by
  by_cases ready : s.phase = .ready
  · obtain ⟨t, form, same⟩ := phase
    exact ⟨t, form, fun outside => absurd (same.trans ready) outside⟩
  · exact ⟨s, stands (h ready), h⟩

/-- In service the phase stays; outside service the command leaves the quiet. -/
theorem KeepsQuiet.next {t : State} (h : Quiet s) (phase : s.phase = .ready → t.phase = .ready)
    (quiet : QuietInReset s → s.phase ≠ .ready → QuietInReset t) : KeepsQuiet (.next t) := by
  refine ⟨t, rfl, fun outside => ?_⟩
  have away : s.phase ≠ .ready := fun ready => outside (phase ready)
  exact quiet (h away) away

theorem KeepsQuiet.linkEvent (h : Quiet s) (event : LinkEvent b c) : KeepsQuiet (exec c s) :=
  .stands h (event.phase s) fun quiet => quiet.linkEvent event

theorem KeepsQuiet.grant (h : Quiet s) (k : RecordKind) : KeepsQuiet (exec (grantCommand k.code) s) := by
  refine .stands h ?_ fun quiet => ?_
  · rw [exec_grantCommand]
    refine ⟨_, rfl, ?_⟩
    split
    · split
      · exact State.grant_phase fun u => by rw [(k.take_writes _ _ u).state]
      · rfl
    · rfl
  · rw [exec_grantCommand]
    exact State.grantOf_other fun g next => nomatch next.symm.trans quiet.nextGrant

theorem KeepsQuiet.unknownRequestKind (h : Quiet s) : KeepsQuiet (exec .unknownRequestKind s) := by
  refine .stands h ⟨_, rfl, ?_⟩ fun quiet => ?_
  · split
    · split
      · exact State.grant_phase fun _ => rfl
      · rfl
    · rfl
  · have waits := quiet.nextGrant
    simp only [exec, execUnknownRequestKind, waits]

theorem KeepsQuiet.advance (h : Quiet s) : KeepsQuiet (exec .advance s) := by
  refine .stands h ⟨_, rfl, ?_⟩ fun quiet => ?_
  · split
    · split
      · exact (s.samePort_advanceAt _).phase
      · rfl
    · rfl
  · have still : s.advanceCondition = false := by simp [State.advanceCondition, quiet.runState]
    exact (noAdvanceWithoutItsCondition s).2 still

/-- What the quiet of reset reads of one board. -/
theorem QuietInReset.modifyBoard (h : QuietInReset s) {f : Board → Board}
    (same : ∀ e, (f e).link = e.link ∧ (f e).member = e.member ∧ (∀ t, (f e).slot t = e.slot t) ∧
      (f e).ackTimer = e.ackTimer ∧ (f e).holdTimer = e.holdTimer) : QuietInReset (s.modifyBoard b f) := by
  refine ⟨h.frame, h.slot, fun b' => ?_, h.records, h.calendar, h.runState, h.events⟩
  rw [State.board_modifyBoard]
  split
  · rename_i own
    obtain ⟨link, member, slot, ack, hold⟩ := same (s.board b)
    rw [link, member, slot, slot, ack, hold]
    exact h.boards b
  · exact h.boards b'

theorem KeepsQuiet.lineActivity (h : Quiet s) : KeepsQuiet (exec (.lineActivityDetected b) s) := by
  refine .next h (fun ready => ?_) fun quiet outside => ?_
  · split
    · split <;> exact ready
    all_goals exact ready
  · have away : s.isReady = false := decide_eq_false outside
    simp only [quiet.down b, away, Bool.false_eq_true, if_false]
    exact quiet.modifyBoard fun e => ⟨rfl, rfl, fun _ => rfl, rfl, rfl⟩

theorem KeepsQuiet.lossOfSignal (h : Quiet s) : KeepsQuiet (exec (.lossOfSignal b) s) := by
  refine .next h (fun ready => ?_) fun quiet _ => ?_
  · split
    · exact ready
    · exact ready
    · exact (State.dropLinked_phase ..).trans ready
    · exact ready
  · simp only [quiet.down b]
    exact quiet.modifyBoard fun e => ⟨rfl, rfl, fun _ => rfl, rfl, rfl⟩

theorem KeepsQuiet.haltNAsserted (h : Quiet s) : KeepsQuiet (exec .haltNAsserted s) := by
  refine .next h (fun ready => ?_) fun quiet outside => ?_
  · split
    · exact ready
    · dsimp only
      split
      · exact (State.takeHaltLine_phase _).trans ready
      · exact ready
  · split
    · exact quiet
    · dsimp only
      rw [if_neg (by simpa [State.isReady] using outside)]
      exact ⟨quiet.frame, quiet.slot, quiet.boards, quiet.records, quiet.calendar, quiet.runState, quiet.events⟩

theorem KeepsQuiet.haltNNegated (h : Quiet s) : KeepsQuiet (exec .haltNNegated s) :=
  .next h id fun quiet _ =>
    ⟨quiet.frame, quiet.slot, quiet.boards, quiet.records, quiet.calendar, quiet.runState, quiet.events⟩

/-- Outside service a frame is NOT_READY (R172). -/
theorem State.portStatus_outside (outside : s.phase ≠ .ready) : s.portStatus = .notReady := by
  unfold State.portStatus
  split
  · contradiction
  all_goals rfl

theorem QuietInReset.frameStatus (h : QuietInReset s) (outside : s.phase ≠ .ready) : s.frameStatus = .notReady := by
  obtain ⟨ready, busy⟩ := h.frame
  unfold State.frameStatus
  cases frame : s.frame with
  | none => exact State.portStatus_outside outside
  | some status =>
    cases status with
    | ready => exact absurd frame ready
    | busy => exact absurd frame busy
    | notReady => rfl

theorem KeepsQuiet.scsNAsserted (h : Quiet s) : KeepsQuiet (exec .scsNAsserted s) := by
  refine .next h id fun quiet outside => ⟨?_, quiet.slot, quiet.boards, quiet.records, quiet.calendar, quiet.runState,
    quiet.events⟩
  rw [State.portStatus_outside outside]
  exact ⟨nofun, nofun⟩

theorem QuietInReset.endFrame (h : QuietInReset s) (out : List Byte) : QuietInReset (s.endFrame out) :=
  ⟨⟨nofun, nofun⟩, h.slot, h.boards, h.records, h.calendar, h.runState, h.events⟩

/-! The resets (R89, R113, R177) -/

theorem quietInReset_of {t : State} (frame : t.frame ≠ some .ready ∧ t.frame ≠ some .busy) (slot : t.slot = .empty)
    (boards : ∀ b, (t.board b).link = .down ∧ (t.board b).member = false ∧ (t.board b).slot 0 = .empty ∧
      (t.board b).slot 1 = .empty ∧ (t.board b).ackTimer = none ∧ (t.board b).holdTimer = none)
    (records : t.records = State.reset.records) (calendar : t.calendar = []) (run : t.runState = .stopped)
    (events : t.events = Events.none) : QuietInReset t :=
  ⟨frame, slot, boards, fun d => (State.domain_of_records records d).trans (State.domain_reset d), calendar, run, events⟩

/-- A board entry of reset. -/
theorem Board.quiet_of_powerOn {e : Board} (link : e.link = .down) (member : e.member = false)
    (slot : ∀ t, e.slot t = Board.powerOn.slot t) (ack : e.ackTimer = none) (hold : e.holdTimer = none) :
    e.link = .down ∧ e.member = false ∧ e.slot 0 = .empty ∧ e.slot 1 = .empty ∧ e.ackTimer = none ∧ e.holdTimer = none :=
  ⟨link, member, (slot 0).trans (Board.slot_powerOn 0), (slot 1).trans (Board.slot_powerOn 1), ack, hold⟩

theorem KeepsQuiet.powerOnReset (s : State) : KeepsQuiet (exec .powerOnReset s) := by
  refine ⟨_, rfl, fun _ => quietInReset_of ?_ rfl (fun b => ?_) rfl rfl rfl rfl⟩
  · dsimp only
    cases s.frame with
    | none => exact ⟨nofun, nofun⟩
    | some _ => exact ⟨nofun, nofun⟩
  · have entry := State.board_powerOnValues s .resetHeld b
    have quiet := Board.quiet_of_powerOn (e := (s.powerOnValues .resetHeld).board b) (by rw [entry]; rfl)
      (by rw [entry]; rfl) (fun t => by rw [entry]; rfl) (by rw [entry]; rfl) (by rw [entry]; rfl)
    exact quiet

theorem State.softReset_quiet (s : State) (deadline : Nat) (sdo : List Byte) :
    QuietInReset { s.softResetValues (.initialising deadline) with sdo := sdo } := by
  refine quietInReset_of ⟨nofun, nofun⟩ rfl (fun b => ?_) rfl rfl rfl rfl
  have entry := State.board_softResetValues s (.initialising deadline) b
  have quiet := Board.quiet_of_powerOn (e := (s.softResetValues (.initialising deadline)).board b) (by rw [entry]; rfl)
    (by rw [entry]; rfl) (fun t => by rw [entry]; rfl) (by rw [entry]; rfl) (by rw [entry]; rfl)
  exact quiet

theorem KeepsQuiet.resetNNegated (h : Quiet s) : KeepsQuiet (exec .resetNNegated s) := by
  refine .next h (fun ready => ?_) fun quiet _ => ?_
  · rw [ready]
    exact ready
  · split
    · exact ⟨quiet.frame, quiet.slot, quiet.boards, quiet.records, quiet.calendar, quiet.runState, quiet.events⟩
    · exact quiet
    · exact quiet

theorem State.completeInitialisation_phase (s : State) : s.completeInitialisation.phase = .ready := by
  cases halt : s.haltAsserted with
  | false =>
    rw [State.completeInitialisation_negated halt]
    exact State.mapBoards_phase ..
  | true =>
    rw [State.completeInitialisation_asserted halt]
    exact (State.mapBoards_phase ..).trans (State.takeHaltLine_phase _)

theorem KeepsQuiet.resetInitialisationComplete (h : Quiet s) : KeepsQuiet (exec .resetInitialisationComplete s) := by
  refine ⟨_, rfl, ?_⟩
  split
  · exact fun outside => absurd (State.completeInitialisation_phase _) outside
  · exact h
  · exact h

/-! Service frames (R171, R172, R177) -/

theorem KeepsQuiet.softReset (ready : s.phase = .ready) (payload : List Byte) :
    KeepsQuiet (execSoftReset payload s) := by
  have serves : ∀ {t : State}, t.phase = s.phase → Quiet t := fun same outside => absurd (same.trans ready) outside
  refine ⟨_, rfl, ?_⟩
  dsimp only
  split
  · split
    · exact serves rfl
    · exact fun _ => State.softReset_quiet ..
  · split
    · exact serves rfl
    · exact serves rfl

theorem KeepsQuiet.serviceFrame (h : Quiet s) (code : Byte) (payload : List Byte) :
    KeepsQuiet (takeServiceFrame code payload s) := by
  by_cases ready : s.phase = .ready
  · by_cases soft : code = Codes.softReset
    · subst soft
      exact .softReset ready payload
    · obtain ⟨t, form, _, phase⟩ := takeServiceFrame_ends code payload s
      exact ⟨t, form, fun outside => absurd ((phase soft).trans ready) outside⟩
  · have quiet := h ready
    have status := quiet.frameStatus ready
    refine ⟨_, takeServiceFrame_notReady (by rw [status]; nofun) fun _ _ => status, fun _ => quiet.endFrame _⟩

theorem KeepsQuiet.encoded (h : Quiet s) {code : Byte} {payload : List Byte}
    (e : encodeServiceFrame c = some (code :: payload)) : KeepsQuiet (exec c s) := by
  rw [exec_eq_takeServiceFrame s e]
  exact .serviceFrame h code payload

theorem KeepsQuiet.shortFrame (h : Quiet s) : KeepsQuiet (.next s.shortFrame) :=
  .next h id fun quiet _ => quiet.endFrame []

/-- Every command keeps the quiet of reset. -/
theorem exec_keepsQuiet (c : Instr) (h : Quiet s) : KeepsQuiet (exec c s) := by
  cases c with
  | powerOnReset => exact .powerOnReset s
  | resetInitialisationComplete => exact .resetInitialisationComplete h
  | haltNAsserted => exact .haltNAsserted h
  | lineActivityDetected b => exact .lineActivity h
  | lossOfSignal b => exact .lossOfSignal h
  | probeAnswerTimeout b => exact .linkEvent h .probeAnswerTimeout
  | echo b number code arrival => exact .linkEvent h (.echo number code arrival)
  | frameCheck b => exact .linkEvent h .frameCheck
  | badFrame b => exact .linkEvent h .badFrame
  | error b => exact .linkEvent h .error
  | ack b seq16 => exact .linkEvent h (.ack seq16)
  | ackTimeout b => exact .linkEvent h .ackTimeout
  | hold b cause => exact .linkEvent h (.hold cause)
  | release b cause => exact .linkEvent h (.release cause)
  | holdTimeout b => exact .linkEvent h .holdTimeout
  | stopFrame b code => exact .linkEvent h (.stopFrame code)
  | request b tag kind params => exact .linkEvent h (.request tag kind params)
  | replySent b tag => exact .linkEvent h (.replySent tag)
  | recordCommandEntersSlot code payload => exact .serviceFrame h code payload
  | unknownRequestKind => exact .unknownRequestKind h
  | unknownCommandCode code payload =>
    cases code with
    | none => exact .shortFrame h
    | some code => exact .serviceFrame h code payload
  | create => exact .grant h .create
  | find => exact .grant h .find
  | lookup => exact .grant h .lookup
  | list => exact .grant h .list
  | listFrom => exact .grant h .listFrom
  | attach => exact .grant h .attach
  | detach => exact .grant h .detach
  | start => exact .grant h .start
  | resume => exact .grant h .resume
  | revise => exact .grant h .revise
  | pause => exact .grant h .pause
  | retire => exact .grant h .retire
  | cancel => exact .grant h .cancel
  | setStop => exact .grant h .setStop
  | advance => exact .advance h
  | run payload => exact .encoded h rfl
  | step payload => exact .encoded h rfl
  | stop payload => exact .encoded h rfl
  | clear payload => exact .encoded h rfl
  | rewind payload => exact .encoded h rfl
  | resync payload => exact .encoded h rfl
  | readRun payload => exact .encoded h rfl
  | admitBoard payload => exact .encoded h rfl
  | expel payload => exact .encoded h rfl
  | retrain payload => exact .encoded h rfl
  | setBoard payload => exact .encoded h rfl
  | readBoard payload => exact .encoded h rfl
  | setCabinet payload => exact .encoded h rfl
  | identify payload => exact .encoded h rfl
  | softReset payload => exact .encoded h rfl
  | readEvents payload => exact .encoded h rfl
  | setMask payload => exact .encoded h rfl
  | readReply clocked => exact .encoded h rfl
  | haltNNegated => exact .haltNNegated h
  | resetNNegated => exact .resetNNegated h
  | scsNAsserted => exact .scsNAsserted h

/-! The idle step (log 3) -/

/-- A DOWN link sends nothing. -/
theorem QuietInReset.sendFrames (h : QuietInReset s) (b : BoardNo) : s.sendFrames.board b = s.board b := by
  have idle : (s.board b).reachesHoldUnit = false := by simp only [Board.reachesHoldUnit, h.down b]
  rw [State.sendFrames, State.board_mapBoards, idle, Bool.false_and, if_neg Bool.false_ne_true]

theorem QuietInReset.tick (h : QuietInReset s) : QuietInReset s.tick := by
  have sent := h.sendFrames
  rw [State.tick_eq]
  generalize s.sendFrames = u at sent ⊢
  refine ⟨h.frame, h.slot, fun b => ?_, h.records, h.calendar, h.runState, h.events⟩
  have read : ({ s with
      boards := u.boards
      clock := s.clock + 1
      freeCount := s.freeCount + 1 } : State).board b = s.board b := sent b
  rw [read]
  exact h.boards b

theorem State.tick_phase (s : State) : s.tick.phase = s.phase := by rw [State.tick_eq]

theorem Quiet.idle (h : Quiet s) : Quiet s.idle := by
  unfold State.idle
  split
  · intro outside
    rw [State.tick_phase] at outside
    exact (h outside).tick
  · intro outside
    have quiet := h outside
    exact ⟨quiet.frame, quiet.slot, quiet.boards, quiet.records, quiet.calendar, quiet.runState, quiet.events⟩

end Groups

/-- Settles O56: a command keeps the quiet of reset, and so does a period in which none waits. -/
theorem everyStepKeepsTheQuietOfReset : Obligations.EveryStepKeepsTheQuietOfReset := by
  intro s t h taken
  unfold step at taken
  split at taken
  · injection taken with taken
    exact taken ▸ h.idle
  · rename_i c rest _
    have quiet : Quiet { s with pending := rest } := fun outside =>
      have quiet := h outside
      ⟨quiet.frame, quiet.slot, quiet.boards, quiet.records, quiet.calendar, quiet.runState, quiet.events⟩
    obtain ⟨u, form, kept⟩ := exec_keepsQuiet c quiet
    rw [form] at taken
    injection taken with same
    exact same ▸ kept

end Sys2Proof.Safety
end
